-- ==== Sys2Proof/Word.lean ====
section
/-! DEFINITION. The OFE's data widths (00_scope.md R9): bytes, 16-bit fields, 32-bit registers, 128-bit cipher blocks. -/

namespace Sys2Proof

/-- A frame byte, buffer byte, transmitted or received byte (R9). -/
abbrev Byte := BitVec 8

/-- A 16-bit frame header field, register field or host address (R9). -/
abbrev Half := BitVec 16

/-- A 32-bit host register value or command word (R9). -/
abbrev Word := BitVec 32

/-- A cipher block or the chaining value, 128 bits (R9). Byte `t` of the block, counted from the lowest address, is bits
`8t+7 .. 8t` (log 3). -/
abbrev Block := BitVec 128

end Sys2Proof
end

