-- ==== Sys2Proof/Syntax.lean ====
section
/-! DEFINITION. The OFE's commands, one constructor per row of spec/opcode_table.json (30_encoding.md R82). -/

namespace Sys2Proof

/-- The eight commands (R82). Only CKSUM has an operand, the frame index `ARG` (R81). -/
inductive Instr where
  /-- Completes at once (40 R94). -/
  | nop
  /-- The self-test pattern into `IMG` (41 R100). -/
  | testpat
  /-- Slice the image into frames (41 R106). -/
  | pack
  /-- Encrypt the artifact buffer in place (42 R132). -/
  | encrypt
  /-- PACK, then ENCRYPT (42 R135). -/
  | generate
  /-- Recompute and compare the checksum of frame `k` (41 R109). -/
  | cksum (k : Nat)
  /-- Send the artifact to the device (44 R171). -/
  | flash
  /-- Cancel the running command (44 R182). -/
  | abort
deriving DecidableEq, Repr

end Sys2Proof
end

