-- ==== Sys2Proof/WellFormed.lean ====
section
/-! DEFINITION. Which commands have a word: the operand of CKSUM must fit the 16-bit field `ARG` (30_encoding.md R80, R81). -/

namespace Sys2Proof

/-- A natural that fits the 16-bit field `ARG`, 0..65535 (R81). -/
def argFits (k : Nat) : Bool := decide (k < 65536)

/-- A command is well-formed when its operand fits its field (R80, R81). -/
def Instr.wf : Instr → Bool
  | .nop      => true
  | .testpat  => true
  | .pack     => true
  | .encrypt  => true
  | .generate => true
  | .cksum k  => argFits k
  | .flash    => true
  | .abort    => true

end Sys2Proof
end

