-- ==== Sys2Proof/Decode.lean ====
section
/-! DEFINITION. Decoding a command word (30_encoding.md R80 to R84, R87), total, rejecting by name, and the encoder. -/

namespace Sys2Proof

/-- Why a sequence of bytes holds no command. -/
inductive DecodeError where
  /-- Fewer than the four bytes of a command word (R80: a command is exactly one 32-bit word). -/
  | short (bytes : Nat)
  /-- A reserved opcode (R83); Machine/HostBus.lean raises BADCMD for it, or drops it while busy. -/
  | reserved (opc : Byte)
deriving DecidableEq, Repr

/-- `OPC = w[7:0]` (R80). -/
def opcOf (w : Word) : Byte := w.extractLsb' 0 8

/-- `ARG = w[23:8]` (R80, R81). -/
def argOf (w : Word) : Half := w.extractLsb' 8 16

/-- The command a word names, or that its opcode is reserved: decided from `OPC` alone; `RSV` is ignored, and `ARG` by every
command but CKSUM (R80 to R84). -/
def decodeWord (w : Word) : Except DecodeError Instr :=
  match (opcOf w).toNat with
  | 0x00 => .ok .nop
  | 0x01 => .ok .testpat
  | 0x10 => .ok .pack
  | 0x11 => .ok .encrypt
  | 0x12 => .ok .generate
  | 0x13 => .ok (.cksum (argOf w).toNat)
  | 0x20 => .ok .flash
  | 0x21 => .ok .abort
  | _    => .error (.reserved (opcOf w))

/-- A command word from its four bytes, least significant first, and what follows it (R80; log 12). -/
def decode : List Byte → Except DecodeError (Instr × List Byte)
  | b0 :: b1 :: b2 :: b3 :: rest =>
    match decodeWord (b3 ++ b2 ++ b1 ++ b0 : BitVec 32) with
    | .ok i    => .ok (i, rest)
    | .error e => .error e
  | bs => .error (.short bs.length)

/-- The opcode of a command (R82). -/
def Instr.opcode : Instr → Byte
  | .nop      => 0x00#8
  | .testpat  => 0x01#8
  | .pack     => 0x10#8
  | .encrypt  => 0x11#8
  | .generate => 0x12#8
  | .cksum _  => 0x13#8
  | .flash    => 0x20#8
  | .abort    => 0x21#8

/-- The operand field a command is written with: `k` for CKSUM and 0 otherwise (R85). -/
def Instr.arg : Instr → Nat
  | .nop      => 0
  | .testpat  => 0
  | .pack     => 0
  | .encrypt  => 0
  | .generate => 0
  | .cksum k  => k
  | .flash    => 0
  | .abort    => 0

/-- The word of a well-formed command: `RSV` 0, `ARG`, `OPC` (R80, R85, R87). -/
def encode (i : Instr) : Word := (0#8 ++ BitVec.ofNat 16 i.arg ++ i.opcode : BitVec 32)

/-- The four bytes of a word, least significant first. -/
def wordBytes (w : Word) : List Byte :=
  [w.extractLsb' 0 8, w.extractLsb' 8 8, w.extractLsb' 16 8, w.extractLsb' 24 8]

/-- What the decoder reads from the instruction whose low `nbits` bits are `w`, every bit above them 0 (the host's question). -/
def decodeTableWord (nbits w : Nat) : Option Instr :=
  match decode (wordBytes (BitVec.ofNat 32 (w % 2 ^ nbits))) with
  | .ok (i, _) => some i
  | .error _   => none

end Sys2Proof
end

