-- ==== Sys2Proof/Config.lean ====
section
/-! DEFINITION. The fixed parameters (00_scope.md R6, R7), the named parameters the spec leaves open (R8), and the free
values ("any value: a model draws it", 93_implementation_defined.md I9 to I16), which have no body. -/

namespace Sys2Proof

/-- `BYTE_ORDER` of the 16-bit frame fields and checksum words (R8, R11; 92 D3). -/
inductive ByteOrder where
  | le
  | be
deriving DecidableEq, Repr

/-- `CKSUM_MODE` (R8; 41 R104; 90 C1): end-around-carry fold, or the sum mod 2^16. -/
inductive CksumMode where
  | fold
  | mod16
deriving DecidableEq, Repr

/-- The two byte buffers (10 R37, R38). -/
inductive Buf where
  | img
  | art
deriving DecidableEq, Repr

/-- The named parameters of R8 that are plain values. They are configuration, fixed for a machine: State carries them in a
field nothing writes, so that a statement about every state is a statement about every configuration (log 2). -/
structure Params where
  byteOrder    : ByteOrder
  cksumMode    : CksumMode
  /-- `RETRY_DEFAULT`, the reset value of `MAX_RETRY`. -/
  retryDefault : Byte
  /-- `RXQ_DEPTH`, the receive FIFO depth in bytes; R8 asks for at least 1. -/
  rxqDepth     : Nat
deriving DecidableEq, Repr

namespace Config

/-- `START_OFFSET` (R6). -/
@[simp] abbrev startOffset : Nat := 0x1000

/-- `END_OFFSET` (R6). -/
@[simp] abbrev endOffset : Nat := 0x4000

/-- `IMG_MAX` (R6): the bytes of `IMG`. -/
@[simp] abbrev imgMax : Nat := 0x3000

/-- `CHUNK` (R6): payload bytes per frame. -/
@[simp] abbrev chunk : Nat := 64

/-- `HDR` (R6): header bytes per frame. -/
@[simp] abbrev hdr : Nat := 8

/-- `MAGIC` (R6). -/
@[simp] abbrev magic : Half := 0x1337#16

/-- `BLOCK` (R6): cipher block length in bytes. -/
@[simp] abbrev blockLen : Nat := 16

/-- `TOTAL_SIZE` (R6, R7): frame length in bytes. -/
@[simp] abbrev totalSize : Nat := 80

/-- `PAD_FULL` (R6): the pad of a frame with a full payload. -/
@[simp] abbrev padFull : Nat := 8

/-- `N_MAX` (R6): frames of the largest region. -/
@[simp] abbrev nMax : Nat := 192

/-- `ART_MAX` (R6): the bytes of `ART`. -/
@[simp] abbrev artMax : Nat := 15360

/-- `ACK_BYTE` (R6), ASCII `'V'`. -/
@[simp] abbrev ackByte : Byte := 0x56#8

/-- `IV` (R6): 16 bytes of 0x00. -/
@[simp] abbrev iv : Block := 0#128

/-- `KEY_BITS` (R8, OPEN): no value can be proved of it (log 3). -/
opaque keyBits : Nat

/-- `KEY` (R8, R137, OPEN): configuration, never state (log 3). -/
opaque key : BitVec keyBits

/-- `CIPHER` (R8, R130, OPEN): for each key a total function of the input block, uninterpreted (log 3). -/
opaque cipher : (bits : Nat) → BitVec bits → Block → Block

/-- `E_K` (R130): the cipher under the fixed key, a function of its input block and `KEY` alone. -/
def encryptBlock (b : Block) : Block := cipher keyBits key b

/-- One less than the `RXQ_DEPTH` of the machine at power-on (R8, OPEN, at least 1; log 4). -/
opaque rxqDepthPred : Nat

/-- `RXQ_DEPTH` of the machine at power-on, at least 1 (R8; log 4). -/
def rxqDepth : Nat := rxqDepthPred + 1

/-- The configuration at power-on: the spec's defaults of R8, and the open `RXQ_DEPTH` (log 2, log 4). -/
def defaults : Params where
  byteOrder    := .le
  cksumMode    := .fold
  retryDefault := 3#8
  rxqDepth     := rxqDepth

/-- Free value of a host read, by draw number: reserved bits, `CMD`, unmapped addresses, buffers while busy (I9 to I12; log 5). -/
opaque anyWord : Nat → Word

/-- Free value of a buffer byte nothing has written since the draw, by buffer, draw number and offset (I13, I14, I16; log 5). -/
opaque anyByte : Buf → Nat → Nat → Byte

/-- Free value of `ART_LEN` after the cancel of a PACK or GENERATE, by draw number (I16; log 5). -/
opaque anyLen : Nat → Half

/-- Free value of `cv` after a reset, by draw number (I15; log 6). -/
opaque anyBlock : Nat → Block

end Config

end Sys2Proof
end

