-- ==== Sys2Proof/Machine/State.lean ====
section
/-! DEFINITION. The state of the OFE (10_state.md), its inputs and outputs, what can stop it, and reset (70 R230). -/

namespace Sys2Proof.Machine

/-- A byte buffer (10 R37, R38) as plain data: the bytes written since the last draw, addresses strictly rising (`Memory.wf`),
each key an offset in the buffer. An offset with no cell holds NO written value; a read there gives the free byte
`Config.anyByte` of draw `draw` (70 R232: unspecified, a model draws it; log 5). -/
structure Memory where
  cells : List Host.Cell
  /-- The draw the unwritten bytes come from. -/
  draw  : Nat
deriving DecidableEq, Repr

/-- `st`, the engine state (10 R40). -/
inductive EngState where
  | idle
  | packing
  | encrypting
  | connected
  | sending
  | awaitAck
  | nacked
  | done
  | aborted
deriving DecidableEq, Repr

/-- The error codes of 60 R201; codes 0x09 to 0xFF are never written. -/
inductive ErrorCode where
  /-- NONE, 0x00. -/
  | noError
  /-- BADCMD, 0x01: a reserved opcode was accepted. -/
  | badCmd
  /-- RANGE, 0x02: a length, address or frame index out of range. -/
  | range
  /-- ALIGN, 0x03: a length that is no multiple of the cipher block. -/
  | align
  /-- FRAMING, 0x04: a length that is no multiple of the frame. -/
  | framing
  /-- OPEN, 0x05: the port did not open. -/
  | openFailed
  /-- NACK, 0x06: a protocol block rejected or timed out too often. -/
  | nack
  /-- IO, 0x07: link fault or receive overflow. -/
  | io
  /-- ABORTED, 0x08: the host cancelled the command. -/
  | aborted
deriving DecidableEq, Repr

/-- What `LAST_ACK` holds (10 R33): the register 0, a received status byte (`VALID`), or the no-ack mark (`TIMEOUT`). -/
inductive LastAck where
  | none
  | received (b : Byte)
  | timedOut
deriving DecidableEq, Repr

/-- The commands that run over several engine steps (41 R106, 42 R132, R135, 44 R171); which of them runs decides what an
ABORT leaves unspecified (44 R182; log 8). -/
inductive Running where
  | pack
  | encrypt
  | generate
  | flash
deriving DecidableEq, Repr

/-- One host access (20 R60 to R65): any 16-bit address, any width in bytes; those that are no legal access are bus errors. -/
inductive HostOp where
  | read (addr : Half) (width : Nat)
  | write (addr : Half) (width : Nat) (value : Word)
deriving DecidableEq, Repr

/-- One turn of an agent, or an input event (00 R15; 70 R230). -/
inductive Event where
  /-- The host makes one access (20 R70). -/
  | host (op : HostOp)
  /-- The engine takes one step, if it has one (60 R217, 44 R177). -/
  | engine
  /-- The device sends a byte (43 R155, R157). -/
  | device (b : Byte)
  /-- The link fails (43 R158). -/
  | linkFault
  /-- The input `link_ok` takes this level (43 R150). -/
  | linkLevel (ok : Bool)
  /-- The acknowledgment timeout fires, if it may (44 R180). -/
  | timeout
  /-- The reset event (70 R230). -/
  | reset
deriving DecidableEq, Repr

/-- The state (10 R20), with the inputs to come and the outputs so far. The flags and enables that software reads as bits of
one register are Booleans here; Machine/Flags.lean lays them out in their registers. -/
structure State where
  /-- The parameters (00 R8): configuration; nothing writes it (10 R20; log 2). -/
  cfg : Params
  /-- `CTRL.DONE_IE` (10 R22). -/
  doneIe : Bool
  /-- `CTRL.ERR_IE` (10 R22). -/
  errIe : Bool
  /-- `CTRL.PROG_IE` (10 R22). -/
  progIe : Bool
  /-- `STATUS.DONE` (10 R24). -/
  done : Bool
  /-- `STATUS.ERR` (10 R24). -/
  err : Bool
  /-- `STATUS.PROG` (10 R24). -/
  prog : Bool
  /-- `STATUS.MATCH` (10 R24). -/
  matched : Bool
  /-- `STATUS.WERR` (10 R24). -/
  werr : Bool
  /-- `ERRCODE.CODE` (10 R26). -/
  errCode : ErrorCode
  /-- `IMG_LEN.LEN` (10 R27). -/
  imgLen : Half
  /-- `ART_LEN.LEN` (10 R28). -/
  artLen : Half
  /-- What `ART_LEN` held before the PACK step that ended a GENERATE's packing phase (implied by 70 R237; log 17). -/
  artLenBefore : Half
  /-- `BASE.ADDR` (10 R29). -/
  base : Half
  /-- `MAX_RETRY.N` (10 R30). -/
  maxRetry : Byte
  /-- `BLK_IDX.I` (10 R31). -/
  blkIdx : Half
  /-- `PROGRESS.BYTES` (10 R32). -/
  progress : Half
  /-- `LAST_ACK` (10 R33). -/
  lastAck : LastAck
  /-- `ATTEMPT.N` (10 R34). -/
  attempt : Byte
  /-- `ERR_INDEX` (10 R35). -/
  errIndex : Half
  /-- `ERR_OFFSET` (10 R35). -/
  errOffset : Half
  /-- `CKSUM.CALC` (10 R36). -/
  cksumCalc : Half
  /-- `CKSUM.STORED` (10 R36). -/
  cksumStored : Half
  /-- `IMG` (10 R37). -/
  img : Memory
  /-- `ART` (10 R38). -/
  art : Memory
  /-- `st` (10 R40). -/
  st : EngState
  /-- The next frame PACK builds (10 R41). -/
  k : Nat
  /-- The frame count of the current PACK (10 R41). -/
  nfrm : Nat
  /-- The next cipher block (10 R41). -/
  j : Nat
  /-- The cipher block count of the current ENCRYPT (10 R41). -/
  nblk16 : Nat
  /-- The protocol block count of the current FLASH (10 R41). -/
  nblk : Nat
  /-- The bytes of the current protocol block already sent (10 R41). -/
  txpos : Nat
  /-- True while a GENERATE is in its packing phase (10 R41). -/
  gen : Bool
  /-- The chaining value (10 R42). -/
  cv : Block
  /-- The receive FIFO, oldest first (10 R43). -/
  rxq : List Byte
  /-- True while the serial port is open (10 R44). -/
  portOpen : Bool
  /-- The command that is running, if one is (implied by 44 R182; log 8). -/
  running : Option Running
  /-- The input `link_ok` (43 R150; log 7). -/
  linkOk : Bool
  /-- The events to come, first to last (00 R15, 20 R71; log 1). -/
  schedule : List Event
  /-- The transmit stream: every byte sent, oldest first (43 R150). -/
  tx : List Byte
  /-- The value the last host read returned (20 R61, R62; log 9). -/
  busRead : Option Word
  /-- The number of the next draw (the model's own counter; log 5). -/
  draws : Nat
deriving DecidableEq, Repr

/-- What stops the machine. -/
inductive Fault where
  /-- A bus error (20 R64): raised by Machine/HostBus.lean for a host access that is misaligned, of a wrong width or crossing a
  region. The spec has a model treat it as a fault of the host agent. Safe: the run ends where the OFE would go on untouched
  (log 10). -/
  | busError (addr : Half) (width : Nat)
deriving DecidableEq, Repr

/-- Why the model has no meaning for an instruction. -/
inductive Refusal where
  /-- An instruction with no meaning in the model; raised by no arm, since every command has one. Safe. -/
  | notModelled (mnemonic : String)
deriving DecidableEq, Repr

/-- The OFE right after reset (70 R230, R231; 10_state.md): the registers at the values the spec gives, both buffers and `cv`
unspecified (draw 0 of the free values; logs 5, 6), the power-on configuration (logs 2, 4), `link_ok` high (log 7), no event to
come, nothing sent, nothing read. -/
def State.reset : State where
  cfg          := Config.defaults
  doneIe       := false
  errIe        := false
  progIe       := false
  done         := false
  err          := false
  prog         := false
  matched      := false
  werr         := false
  errCode      := .noError
  imgLen       := 0#16
  artLen       := 0#16
  artLenBefore := 0#16
  base         := 0x1000#16
  maxRetry     := Config.defaults.retryDefault
  blkIdx       := 0#16
  progress     := 0#16
  lastAck      := .none
  attempt      := 0#8
  errIndex     := 0#16
  errOffset    := 0#16
  cksumCalc    := 0#16
  cksumStored  := 0#16
  img          := ⟨[], 0⟩
  art          := ⟨[], 0⟩
  st           := .idle
  k            := 0
  nfrm         := 0
  j            := 0
  nblk16       := 0
  nblk         := 0
  txpos        := 0
  gen          := false
  cv           := Config.anyBlock 0
  rxq          := []
  portOpen     := false
  running      := none
  linkOk       := true
  schedule     := []
  tx           := []
  busRead      := none
  draws        := 1

end Sys2Proof.Machine
end

