-- ==== Sys2Proof/Machine/Flags.lean ====
section
/-! DEFINITION. The engine state's codes and classes (10 R40), the bits of STATUS, CTRL and LAST_ACK in their registers (R22, R24,
R25, R33), the error codes (60 R201) and the interrupt output (R45). -/

namespace Sys2Proof.Machine

/-- The code `STATUS.ENG_STATE` reads for `st` (10 R40). -/
def EngState.code : EngState → BitVec 4
  | .idle       => 0#4
  | .packing    => 1#4
  | .encrypting => 2#4
  | .connected  => 3#4
  | .sending    => 4#4
  | .awaitAck   => 5#4
  | .nacked     => 6#4
  | .done       => 7#4
  | .aborted    => 8#4

/-- The busy states (10 R24, R40). -/
def EngState.busy : EngState → Bool
  | .idle       => false
  | .packing    => true
  | .encrypting => true
  | .connected  => true
  | .sending    => true
  | .awaitAck   => true
  | .nacked     => true
  | .done       => false
  | .aborted    => false

/-- The states of a FLASH after its port opened: CONNECTED, SENDING, AWAIT_ACK, NACKED (60 R205). -/
def EngState.flashing : EngState → Bool
  | .idle       => false
  | .packing    => false
  | .encrypting => false
  | .connected  => true
  | .sending    => true
  | .awaitAck   => true
  | .nacked     => true
  | .done       => false
  | .aborted    => false

/-- `STATUS.BUSY`, a function of `st` (10 R24). -/
def State.busy (s : State) : Bool := s.st.busy

/-- The value of `ERRCODE.CODE` (60 R201). -/
def ErrorCode.code : ErrorCode → Byte
  | .noError    => 0x00#8
  | .badCmd     => 0x01#8
  | .range      => 0x02#8
  | .align      => 0x03#8
  | .framing    => 0x04#8
  | .openFailed => 0x05#8
  | .nack       => 0x06#8
  | .io         => 0x07#8
  | .aborted    => 0x08#8

/-- `CTRL`, its reserved bits 31:3 as 0 (10 R22). -/
def State.ctrlWord (s : State) : Word :=
  (0#29 ++ BitVec.ofBool s.progIe ++ BitVec.ofBool s.errIe ++ BitVec.ofBool s.doneIe : BitVec 32)

/-- `STATUS`, its reserved bits 7 and 31:12 as 0 (10 R24). -/
def State.statusWord (s : State) : Word :=
  (0#20 ++ s.st.code ++ 0#1 ++ BitVec.ofBool s.portOpen ++ BitVec.ofBool s.werr ++ BitVec.ofBool s.matched
    ++ BitVec.ofBool s.prog ++ BitVec.ofBool s.err ++ BitVec.ofBool s.done ++ BitVec.ofBool s.busy : BitVec 32)

/-- `LAST_ACK`: `TIMEOUT` bit 9, `VALID` bit 8, `BYTE` bits 7:0, the rest 0 (10 R33). -/
def LastAck.word : LastAck → Word
  | .none       => 0#32
  | .received b => (0#22 ++ 0#1 ++ 1#1 ++ b : BitVec 32)
  | .timedOut   => 0x200#32

/-- A host write to `CTRL`: the three enables; reserved bits have no effect (10 R22, R46). -/
def State.writeCtrl (s : State) (v : Word) : State :=
  { s with doneIe := v.getLsbD 0, errIe := v.getLsbD 1, progIe := v.getLsbD 2 }

/-- A host write to `STATUS`: writing 1 clears `DONE`, `ERR`, `PROG`, `WERR`; nothing else changes (10 R25). -/
def State.writeStatus (s : State) (v : Word) : State :=
  { s with
    done := s.done && !v.getLsbD 1
    err  := s.err && !v.getLsbD 2
    prog := s.prog && !v.getLsbD 3
    werr := s.werr && !v.getLsbD 5 }

/-- The interrupt output, a level (10 R45; 60 R209). -/
def State.irq (s : State) : Bool :=
  (s.done && s.doneIe) || (s.err && s.errIe) || (s.prog && s.progIe)

end Sys2Proof.Machine
end

