-- ==== Sys2Proof/Machine/Operands.lean ====
section
/-! DEFINITION. Byte sequences and 16-bit fields (00 R11), cipher blocks as bytes (42 R130), the host address map (20 R60 to R65)
and the registers by offset (10_state.md section 2). -/

namespace Sys2Proof.Machine

/-- `le16(v)` (00 R11). -/
def le16 (v : Half) : List Byte := [v.extractLsb' 0 8, v.extractLsb' 8 8]

/-- `be16(v)` (00 R11). -/
def be16 (v : Half) : List Byte := [v.extractLsb' 8 8, v.extractLsb' 0 8]

/-- `put16(v)` under a `BYTE_ORDER` (00 R11). -/
def put16 : ByteOrder → Half → List Byte
  | .le, v => le16 v
  | .be, v => be16 v

/-- `get16(b0, b1)` under a `BYTE_ORDER` (00 R11), a natural. -/
def get16 : ByteOrder → Byte → Byte → Nat
  | .le, b0, b1 => b0.toNat + 256 * b1.toNat
  | .be, b0, b1 => 256 * b0.toNat + b1.toNat

/-- `rep(n, v)` (00 R11). -/
def rep (n : Nat) (v : Byte) : List Byte := List.replicate n v

/-- `xor16` (00 R11) on blocks held as 128 bits. -/
def xor16 (a b : Block) : Block := a ^^^ b

/-- The block of 16 bytes in increasing address order: byte `t` is bits `8t+7 .. 8t` (42 R130; log 3). -/
def blockOfBytes : List Byte → Block
  | []      => 0#128
  | b :: bs => b.setWidth 128 ||| (blockOfBytes bs <<< 8)

/-- The 16 bytes of a block in increasing address order (42 R130; log 3). -/
def bytesOfBlock (c : Block) : List Byte :=
  (List.range 16).map fun t => c.extractLsb' (8 * t) 8

/-- `v[8t+7:8t]`, byte `t` of a host write's value (20 R62). -/
def dataByte (v : Word) (t : Nat) : Byte := v.extractLsb' (8 * t) 8

/-- `sum over t of b_t * 256^t` of the bytes of a host read, lowest address first (20 R62). -/
def leValue : List Byte → Nat
  | []      => 0
  | b :: bs => b.toNat + 256 * leValue bs

/-- A `width`-byte value read from the bus: the bits above it are 0 (20 R62). -/
def busValue (width n : Nat) : Word := BitVec.ofNat 32 (n % 256 ^ width)

/-- The 15 host registers (10_state.md section 2). -/
inductive Reg where
  | ctrl
  | cmd
  | status
  | errcode
  | imgLen
  | artLen
  | base
  | maxRetry
  | blkIdx
  | progress
  | lastAck
  | attempt
  | errIndex
  | errOffset
  | cksum
deriving DecidableEq, Repr

/-- The offset of a register, which is its host address (10_state.md section 2; 20 R60). -/
def Reg.offset : Reg → Nat
  | .ctrl      => 0x00
  | .cmd       => 0x04
  | .status    => 0x08
  | .errcode   => 0x0C
  | .imgLen    => 0x10
  | .artLen    => 0x14
  | .base      => 0x18
  | .maxRetry  => 0x1C
  | .blkIdx    => 0x20
  | .progress  => 0x24
  | .lastAck   => 0x28
  | .attempt   => 0x2C
  | .errIndex  => 0x30
  | .errOffset => 0x34
  | .cksum     => 0x38

/-- The register at an offset (10_state.md section 2). -/
def regAt (off : Nat) : Option Reg :=
  match off with
  | 0x00 => some .ctrl
  | 0x04 => some .cmd
  | 0x08 => some .status
  | 0x0C => some .errcode
  | 0x10 => some .imgLen
  | 0x14 => some .artLen
  | 0x18 => some .base
  | 0x1C => some .maxRetry
  | 0x20 => some .blkIdx
  | 0x24 => some .progress
  | 0x28 => some .lastAck
  | 0x2C => some .attempt
  | 0x30 => some .errIndex
  | 0x34 => some .errOffset
  | 0x38 => some .cksum
  | _    => none

/-- The regions of the host address space (20 R60); the two unmapped ranges are two regions. -/
inductive Region where
  | registers
  | pageHole
  | imgWindow
  | artWindow
  | topHole
deriving DecidableEq, Repr

/-- The region of a host address (20 R60). -/
def regionOf (a : Nat) : Region :=
  if a < 0x003C then .registers
  else if a < 0x1000 then .pageHole
  else if a < 0x4000 then .imgWindow
  else if a < 0x7C00 then .artWindow
  else .topHole

/-- What a legal host access reaches (20 R60 to R65). -/
inductive Target where
  | reg (r : Reg)
  | buf (b : Buf) (off : Nat)
  | unmapped
deriving DecidableEq, Repr

/-- The target of a `w`-byte access at host address `a`, or none where the access is a bus error: a width other than 1, 2 or 4,
an address that is no multiple of the width, bytes in two regions, a register access that is not 4 bytes at a register's
offset (20 R61, R62, R64, R65). -/
def target (a w : Nat) : Option Target :=
  if (w = 1 ∨ w = 2 ∨ w = 4) ∧ a % w = 0 ∧ regionOf (a + w - 1) = regionOf a then
    match regionOf a with
    | .registers => if w = 4 then (regAt a).map .reg else none
    | .imgWindow => some (.buf .img (a - 0x1000))
    | .artWindow => some (.buf .art (a - 0x4000))
    | .pageHole  => some .unmapped
    | .topHole   => some .unmapped
  else none

end Sys2Proof.Machine
end

