-- ==== Sys2Proof/Machine/Ops.lean ====
section
/-! DEFINITION. The named operations every meaning is built from: the buffers, the serial port, accepting or dropping a command
(40 R91, R92), the success completion (60 R203), the error completion (60 R204, the OFE's only exception) and reset (70 R230). -/

namespace Sys2Proof.Machine

/-! ### The buffers -/

/-- Every key of the list is above `a` and the keys rise strictly. -/
def risingAbove (a : Nat) : List Host.Cell → Bool
  | []           => true
  | (b, _) :: cs => decide (a < b) && risingAbove b cs

/-- The keys of the list rise strictly. -/
def rising : List Host.Cell → Bool
  | []           => true
  | (a, _) :: cs => risingAbove a cs

/-- The canonical form: addresses strictly rising. An unlisted address holds no written value, so no entry can repeat what an
unlisted address reads as (log 5). -/
def Memory.wf (m : Memory) : Bool := rising m.cells

/-- Every listed offset lies below the buffer's size. -/
def Memory.fits (m : Memory) (size : Nat) : Bool := m.cells.all fun c => decide (c.1 < size)

/-- The byte listed at an address, if one is. -/
def lookup : List Host.Cell → Nat → Option Byte
  | [], _           => none
  | (b, v) :: cs, a => if a = b then some v else lookup cs a

/-- The list with a byte stored at an address, in canonical form. -/
def insertCell : List Host.Cell → Nat → Byte → List Host.Cell
  | [], a, v           => [(a, v)]
  | (b, u) :: cs, a, v =>
    if a < b then (a, v) :: (b, u) :: cs
    else if a = b then (a, v) :: cs
    else (b, u) :: insertCell cs a v

/-- Byte `a` of a buffer: the byte written there, or the free byte of the buffer's draw (10 R37, R38; 70 R232; log 5). -/
def Memory.byteAt (b : Buf) (m : Memory) (a : Nat) : Byte :=
  match lookup m.cells a with
  | some v => v
  | none   => Config.anyByte b m.draw a

/-- Store one byte. -/
def Memory.write (m : Memory) (a : Nat) (v : Byte) : Memory := { m with cells := insertCell m.cells a v }

/-- Store bytes at consecutive addresses, in increasing order. -/
def Memory.writeBytes (m : Memory) (a : Nat) : List Byte → Memory
  | []      => m
  | v :: vs => (m.write a v).writeBytes (a + 1) vs

/-- A buffer all of whose bytes are the free values of draw `d` ("any": 44 R182, 70 R232; log 5). -/
def Memory.drawn (d : Nat) : Memory := ⟨[], d⟩

/-- The buffer of a name. -/
def State.buf (s : State) : Buf → Memory
  | .img => s.img
  | .art => s.art

/-- `IMG[n]` (10 R37; 00 R12). -/
def State.imgAt (s : State) (n : Nat) : Byte := s.img.byteAt .img n

/-- `ART[n]` (10 R38; 00 R12). -/
def State.artAt (s : State) (n : Nat) : Byte := s.art.byteAt .art n

/-- Byte `n` of a buffer. -/
def State.bufAt (s : State) (b : Buf) (n : Nat) : Byte := (s.buf b).byteAt b n

/-- `IMG[a .. a + n)`. -/
def State.imgBytes (s : State) (a n : Nat) : List Byte := (List.range n).map fun t => s.imgAt (a + t)

/-- `ART[a .. a + n)`. -/
def State.artBytes (s : State) (a n : Nat) : List Byte := (List.range n).map fun t => s.artAt (a + t)

/-- Bytes `a .. a + n` of a buffer. -/
def State.bufBytes (s : State) (b : Buf) (a n : Nat) : List Byte := (List.range n).map fun t => s.bufAt b (a + t)

/-- Store bytes in a buffer from offset `a` on. -/
def State.storeBuf (s : State) (b : Buf) (a : Nat) (bs : List Byte) : State :=
  match b with
  | .img => { s with img := s.img.writeBytes a bs }
  | .art => { s with art := s.art.writeBytes a bs }

/-! ### The serial port -/

/-- Close the port if it is open (43 R153); if it is closed nothing changes. -/
def State.closePort (s : State) : State :=
  { s with portOpen := false, rxq := if s.portOpen then [] else s.rxq }

/-- Open the port; nothing received before the open is kept (43 R152). -/
def State.openPort (s : State) : State := { s with portOpen := true, rxq := [] }

/-- `tx(b)`: put a byte on the serial line (43 R154). -/
def State.send (s : State) (b : Byte) : State := { s with tx := s.tx ++ [b] }

/-! ### The schedule -/

/-- The state with these events to come (log 1). -/
def State.withSchedule (s : State) (l : List Event) : State := { s with schedule := l }

/-! ### Completion and error -/

/-- The success completion (60 R203). -/
def State.complete (s : State) : State :=
  { s.closePort with done := true, st := .done, running := none }

/-- `raise Error(code)`, the error completion (60 R204): ERR_INDEX and ERR_OFFSET are recorded from the state before the step
(R205), the port is closed, and the command ends in ABORTED. -/
def State.raiseError (s : State) (code : ErrorCode) : State :=
  { s.closePort with
    errIndex  := if s.st.flashing then s.blkIdx else 0#16
    errOffset := if s.st.flashing then BitVec.ofNat 16 (80 * s.blkIdx.toNat) else 0#16
    gen       := false
    errCode   := code
    err       := true
    st        := .aborted
    running   := none }

/-! ### Accepting a command -/

/-- What acceptance clears (40 R91); `WERR` is not changed. -/
def State.accept (s : State) : State :=
  { s with done := false, err := false, prog := false, matched := false, errCode := .noError }

/-- A host write that is dropped because the engine is busy (20 R67, R68; 40 R92). -/
def State.dropWrite (s : State) : State := { s with werr := true }

/-- Issue a command other than ABORT: dropped while busy (40 R92), else accepted, and its acceptance part runs in the same step
(40 R91). -/
def State.issue (s : State) (start : State → State) : State :=
  if s.busy then s.dropWrite else start s.accept

/-! ### Reset -/

/-- The reset event (70 R230 to R233): registers and internal state at their reset values, both buffers and `cv` drawn afresh;
the configuration, the inputs, and what was already sent and read stay (log 11). -/
def State.resetEvent (s : State) : State :=
  { State.reset with
    cfg      := s.cfg
    maxRetry := s.cfg.retryDefault
    img      := Memory.drawn s.draws
    art      := Memory.drawn s.draws
    cv       := Config.anyBlock s.draws
    linkOk   := s.linkOk
    schedule := s.schedule
    tx       := s.tx
    busRead  := s.busRead
    draws    := s.draws + 1 }

end Sys2Proof.Machine
end

