-- ==== Sys2Proof/Machine/Framer.lean ====
section
/-! DEFINITION. The frame packer (41_framer.md): TESTPAT, the frame layout and checksum, PACK and CKSUM. -/

namespace Sys2Proof.Machine

/-! ### TESTPAT -/

/-- The byte values 0..255 in order (41 R100). -/
def testPattern : List Byte := (List.range 256).map fun n => BitVec.ofNat 8 n

/-- Acceptance of TESTPAT (41 R100): RANGE, RANGE, else the pattern is written and the command completes. -/
def startTestpat (s : State) : State :=
  if s.imgLen.toNat > Config.imgMax then s.raiseError .range
  else if s.imgLen.toNat < 256 then s.raiseError .range
  else { s with img := s.img.writeBytes 0 testPattern }.complete

/-- TESTPAT (41 R100). -/
def execTestpat (s : State) : Host.Outcome State Fault Refusal := .next (s.issue startTestpat)

/-! ### Frame layout and checksum -/

/-- `ceil(L / 64)`, the frame count of an image (41 R101). -/
def frameCount (len : Nat) : Nat := (len + 63) / 64

/-- The sum of the 16-bit words of a sequence, a natural (41 R104). -/
def wordSum (bo : ByteOrder) : List Byte → Nat
  | b0 :: b1 :: bs => get16 bo b0 b1 + wordSum bo bs
  | _              => 0

/-- One end-around carry (41 R104). -/
def endAroundCarry (n : Nat) : Nat := n / 65536 + n % 65536

/-- The 16-bit checksum of a word sum (41 R104): two end-around carries, or the sum mod 2^16. -/
def reduceSum : CksumMode → Nat → Half
  | .fold, n  => BitVec.ofNat 16 (endAroundCarry (endAroundCarry n))
  | .mod16, n => BitVec.ofNat 16 n

/-- `Cksum(f)` of a sequence whose checksum field is zero (41 R104). -/
def cksumOf (p : Params) (f : List Byte) : Half := reduceSum p.cksumMode (wordSum p.byteOrder f)

/-- The frame with a checksum field of zero (41 R102): header, payload, self-describing pad (R103). -/
def frameZero (bo : ByteOrder) (addr len : Half) (pay : List Byte) : List Byte :=
  put16 bo Config.magic ++ put16 bo addr ++ put16 bo len ++ put16 bo 0#16 ++ pay
    ++ rep (Config.totalSize - Config.hdr - pay.length) (BitVec.ofNat 8 (Config.totalSize - Config.hdr - pay.length))

/-- The frame with its checksum placed in bytes 6 and 7 (41 R102, R105). -/
def frameOf (p : Params) (addr len : Half) (pay : List Byte) : List Byte :=
  let f0 := frameZero p.byteOrder addr len pay
  f0.take 6 ++ put16 p.byteOrder (cksumOf p f0) ++ f0.drop 8

/-- The payload length of frame `k`: `min(64, L - 64k)` (41 R102). -/
def payloadLen (len k : Nat) : Nat := min Config.chunk (len - Config.chunk * k)

/-- `Frame(k)` of the image and registers of a state (41 R102, R110, R111). -/
def State.frame (s : State) (k : Nat) : List Byte :=
  frameOf s.cfg (BitVec.ofNat 16 (s.base.toNat + Config.chunk * k)) s.imgLen
    (s.imgBytes (Config.chunk * k) (payloadLen s.imgLen.toNat k))

/-! ### PACK -/

/-- The acceptance checks of PACK and GENERATE, failed (41 R106): the image too long, or the last frame's address too large. -/
def packOutOfRange (s : State) : Bool :=
  decide (s.imgLen.toNat > Config.imgMax) ||
  (decide (frameCount s.imgLen.toNat > 0) &&
    decide (s.base.toNat + Config.chunk * (frameCount s.imgLen.toNat - 1) > 0xFFFF))

/-- Acceptance shared by PACK and GENERATE (41 R106, 42 R135): both checks raise RANGE; no frame completes at once; else the packing
phase starts. -/
def startPacking (s : State) (generate : Bool) (cmd : Running) : State :=
  if packOutOfRange s then s.raiseError .range
  else if frameCount s.imgLen.toNat = 0 then { s with artLen := 0#16 }.complete
  else { s with nfrm := frameCount s.imgLen.toNat, k := 0, gen := generate, st := .packing, running := some cmd }

/-- PACK (41 R106). -/
def execPack (s : State) : Host.Outcome State Fault Refusal :=
  .next (s.issue fun s' => startPacking s' false .pack)

/-! ### CKSUM -/

/-- A frame with bytes 6 and 7 replaced by 0x00 (41 R109). -/
def zeroCksumField (f : List Byte) : List Byte := f.take 6 ++ [0#8, 0#8] ++ f.drop 8

/-- The checksum field stored in a frame, bytes 6 and 7 (41 R109). -/
def storedCksum (bo : ByteOrder) (f : List Byte) : Half :=
  match f.drop 6 with
  | b6 :: b7 :: _ => BitVec.ofNat 16 (get16 bo b6 b7)
  | _             => 0#16

/-- Acceptance of CKSUM `k` (41 R109): RANGE, RANGE, else the checksum is recomputed and compared. -/
def startCksum (k : Nat) (s : State) : State :=
  if s.artLen.toNat > Config.artMax then s.raiseError .range
  else if Config.totalSize * (k + 1) > s.artLen.toNat then s.raiseError .range
  else
    let f := s.artBytes (Config.totalSize * k) Config.totalSize
    let stored := storedCksum s.cfg.byteOrder f
    let computed := cksumOf s.cfg (zeroCksumField f)
    { s with cksumCalc := computed, cksumStored := stored, matched := decide (computed = stored) }.complete

/-- CKSUM `k` (41 R109). -/
def execCksum (k : Nat) (s : State) : Host.Outcome State Fault Refusal := .next (s.issue (startCksum k))

end Sys2Proof.Machine
end

