-- ==== Sys2Proof/Machine/Cipher.lean ====
section
/-! DEFINITION. The chained block-cipher engine (42_cipher.md): CBC, ENCRYPT, GENERATE, and the PACK step, whose end may start
GENERATE's encryption phase (41 R107). -/

namespace Sys2Proof.Machine

/-- `CBC` from a chaining value over a block function (42 R131): each block is XORed with the ciphertext before it, then enciphered. -/
def cbc (e : Block → Block) : Block → List Block → List Block
  | _, []          => []
  | prev, p :: ps  => e (xor16 p prev) :: cbc e (e (xor16 p prev)) ps

/-- Cipher block `j` of `ART` (42 R130). -/
def State.artBlock (s : State) (j : Nat) : Block := blockOfBytes (s.artBytes (Config.blockLen * j) Config.blockLen)

/-- Load IV and start enciphering the blocks of `ART[0 .. ART_LEN)` (42 R132, R135). -/
def startBlocks (s : State) : State :=
  { s with cv := Config.iv, j := 0, nblk16 := s.artLen.toNat / Config.blockLen, st := .encrypting }

/-- Acceptance of ENCRYPT (42 R132): RANGE, ALIGN, no block completes at once, else the blocks start. -/
def startEncrypt (s : State) : State :=
  if s.artLen.toNat > Config.artMax then s.raiseError .range
  else if s.artLen.toNat % Config.blockLen ≠ 0 then s.raiseError .align
  else if s.artLen.toNat / Config.blockLen = 0 then s.complete
  else { startBlocks s with running := some .encrypt }

/-- ENCRYPT (42 R132). -/
def execEncrypt (s : State) : Host.Outcome State Fault Refusal := .next (s.issue startEncrypt)

/-- GENERATE (42 R135): the acceptance of PACK, with the encryption phase to follow. -/
def execGenerate (s : State) : Host.Outcome State Fault Refusal :=
  .next (s.issue fun s' => startPacking s' true .generate)

/-- GENERATE's encryption phase, entered when the last frame is packed (42 R135); the alignment is asserted. -/
def startEncryptPhase (s : State) : State :=
  if s.artLen.toNat % Config.blockLen ≠ 0 then { s with gen := false }.raiseError .align
  else startBlocks { s with gen := false }

/-- The PACK step (41 R107): one frame; after the last, ART_LEN is set and the command completes or goes on to encrypt. DEDUCED: a
GENERATE also keeps the length it replaces, which is what the host reads until the completing step (70 R237; `State.shownArtLen`,
log 17). -/
def packStep (s : State) : State :=
  let s1 := { s with art := s.art.writeBytes (Config.totalSize * s.k) (s.frame s.k), k := s.k + 1 }
  if s.k + 1 = s.nfrm then
    let s2 := { s1 with artLen := BitVec.ofNat 16 (Config.totalSize * s.nfrm) }
    if s.gen then startEncryptPhase { s2 with artLenBefore := s.artLen } else s2.complete
  else s1

/-- The ENCRYPT step under a block function (42 R133): one cipher block, in place. -/
def encryptStepWith (e : Block → Block) (s : State) : State :=
  let c := e (xor16 (s.artBlock s.j) s.cv)
  let s1 := { s with art := s.art.writeBytes (Config.blockLen * s.j) (bytesOfBlock c), cv := c, j := s.j + 1 }
  if s.j + 1 = s.nblk16 then s1.complete else s1

/-- The ENCRYPT step (42 R133). -/
def encryptStep (s : State) : State := encryptStepWith Config.encryptBlock s

end Sys2Proof.Machine
end

