-- ==== Sys2Proof/Machine/Command.lean ====
section
/-! DEFINITION. NOP (40_command.md R94) and what a reserved opcode does (30 R83). -/

namespace Sys2Proof.Machine

/-- NOP (40 R94): accepted, it completes at once. -/
def execNop (s : State) : Host.Outcome State Fault Refusal := .next (s.issue State.complete)

/-- A reserved opcode (30 R83; 40 R91, R92): accepted, it ends at once with BADCMD; while busy it is dropped. -/
def issueReserved (s : State) : State := s.issue fun s' => s'.raiseError .badCmd

end Sys2Proof.Machine
end

