-- ==== Sys2Proof/Machine/Sequencer.lean ====
section
/-! DEFINITION. The serial transport's inputs (43_transport.md) and the protocol sequencer (44_sequencer.md): FLASH and ABORT. -/

namespace Sys2Proof.Machine

/-! ### FLASH -/

/-- Open the port for a FLASH (44 R172; 43 R152): `link_ok` is read; if the port does not open, OPEN is raised and nothing else of
the session changes. -/
def openForFlash (s : State) : State :=
  if s.linkOk then
    { s.openPort with
      nblk     := s.artLen.toNat / Config.totalSize
      blkIdx   := 0#16
      attempt  := 0#8
      progress := 0#16
      lastAck  := .none
      txpos    := 0
      st       := .connected
      running  := some .flash }
  else s.raiseError .openFailed

/-- Acceptance of FLASH (44 R171): RANGE, FRAMING, then the open. -/
def startFlash (s : State) : State :=
  if s.artLen.toNat > Config.artMax then s.raiseError .range
  else if s.artLen.toNat % Config.totalSize ≠ 0 then s.raiseError .framing
  else openForFlash s

/-- FLASH (44 R171). -/
def execFlash (s : State) : Host.Outcome State Fault Refusal := .next (s.issue startFlash)

/-- The CONNECTED step (44 R173). -/
def connectedStep (s : State) : State :=
  if s.nblk = 0 then s.complete else { s with st := .sending }

/-- The SENDING step (44 R174): one byte of the current protocol block. -/
def sendingStep (s : State) : State :=
  let s1 := { s.send (s.artAt (Config.totalSize * s.blkIdx.toNat + s.txpos)) with txpos := s.txpos + 1 }
  if s.txpos + 1 = Config.totalSize then { s1 with st := .awaitAck } else s1

/-- The AWAIT_ACK step that takes a success byte `b`, with `rest` left in the FIFO (44 R175). -/
def ackedStep (b : Byte) (rest : List Byte) (s : State) : State :=
  let s1 := { s with
    rxq      := rest
    lastAck  := .received b
    progress := BitVec.ofNat 16 (Config.totalSize * (s.blkIdx.toNat + 1))
    prog     := true
    attempt  := 0#8
    blkIdx   := s.blkIdx + 1#16 }
  if s.blkIdx.toNat + 1 = s.nblk then s1.complete else { s1 with txpos := 0, st := .sending }

/-- The AWAIT_ACK step that takes a rejection byte (44 R176). -/
def rejectedStep (b : Byte) (rest : List Byte) (s : State) : State :=
  { s with rxq := rest, lastAck := .received b, st := .nacked }

/-- The AWAIT_ACK step (44 R175 to R177): the oldest byte is taken; with an empty FIFO there is no step. -/
def awaitAckStep (s : State) : Option State :=
  match s.rxq with
  | []        => none
  | b :: rest => some (if b = Config.ackByte then ackedStep b rest s else rejectedStep b rest s)

/-- The NACKED step (44 R179): retransmit the same block, or give up with NACK. -/
def nackedStep (s : State) : State :=
  if s.attempt.toNat < s.maxRetry.toNat then
    { s with attempt := s.attempt + 1#8, rxq := [], txpos := 0, st := .sending }
  else s.raiseError .nack

/-! ### The other agents of the link -/

/-- The device sends a byte (43 R155 to R157): queued, or an overflow, or discarded while the port is closed. -/
def deviceByte (b : Byte) (s : State) : State :=
  if s.portOpen then
    if s.rxq.length < s.cfg.rxqDepth then { s with rxq := s.rxq ++ [b] } else s.raiseError .io
  else s

/-- The link fails (43 R158); it can do so only while the port is open (log 1). -/
def linkFails (s : State) : State :=
  if s.portOpen then s.raiseError .io else s

/-- The acknowledgment timeout fires (44 R180); it can do so only in AWAIT_ACK with an empty FIFO (log 1). -/
def timeoutFires (s : State) : State :=
  if s.st = .awaitAck ∧ s.rxq = [] then { s with lastAck := .timedOut, st := .nacked } else s

/-! ### ABORT -/

/-- Cancel the running command (44 R182): ABORTED; what the cancelled command was writing becomes unspecified. -/
def cancel (s : State) : State :=
  let s1 := s.raiseError .aborted
  match s.running with
  | some .pack     => { s1 with art := Memory.drawn s.draws, artLen := Config.anyLen s.draws, draws := s.draws + 1 }
  | some .generate => { s1 with art := Memory.drawn s.draws, artLen := Config.anyLen s.draws, draws := s.draws + 1 }
  | some .encrypt  => { s1 with art := Memory.drawn s.draws, draws := s.draws + 1 }
  | some .flash    => s1
  | none           => s1

/-- ABORT (44 R182): cancels while busy, no effect while idle. -/
def execAbort (s : State) : Host.Outcome State Fault Refusal :=
  .next (if s.busy then cancel s else s)

end Sys2Proof.Machine
end

