-- ==== Sys2Proof/Machine/Dispatch.lean ====
section
/-! DEFINITION. What each command does in the host step that issues it (40_command.md R90 to R92), one arm per constructor. -/

namespace Sys2Proof.Machine

def exec (i : Instr) (s : State) : Host.Outcome State Fault Refusal :=
  match i with
  | .nop => Sys2Proof.Machine.execNop s
  | .testpat => Sys2Proof.Machine.execTestpat s
  | .pack => Sys2Proof.Machine.execPack s
  | .encrypt => Sys2Proof.Machine.execEncrypt s
  | .generate => Sys2Proof.Machine.execGenerate s
  | .cksum k => Sys2Proof.Machine.execCksum k s
  | .flash => Sys2Proof.Machine.execFlash s
  | .abort => Sys2Proof.Machine.execAbort s

end Sys2Proof.Machine
end

