-- ==== Sys2Proof/Machine/HostBus.lean ====
section
/-! DEFINITION. The host's accesses (20_memory.md R60 to R69) and the issue of a command word (40 R90). -/

namespace Sys2Proof.Machine

/-! ### Reads -/

/-- What a host read of `ART_LEN` shows: the register, which holds a command's new length only from the completing step on (70 R237).
So in a GENERATE's encryption phase it is the length of before, though the engine already works with the new one (41 R107, 42
R135). DEDUCED: the one reading under which the three rules hold together (log 17). Unsafe for a claim about that read. -/
def State.shownArtLen (s : State) : Half :=
  if s.st = .encrypting ∧ s.running = some .generate then s.artLenBefore else s.artLen

/-- The defined bits of a register, its reserved bits as 0 (10 R22 to R36). -/
def State.regValue (s : State) : Reg → Word
  | .ctrl      => s.ctrlWord
  | .cmd       => 0#32
  | .status    => s.statusWord
  | .errcode   => s.errCode.code.setWidth 32
  | .imgLen    => s.imgLen.setWidth 32
  | .artLen    => s.shownArtLen.setWidth 32
  | .base      => s.base.setWidth 32
  | .maxRetry  => s.maxRetry.setWidth 32
  | .blkIdx    => s.blkIdx.setWidth 32
  | .progress  => s.progress.setWidth 32
  | .lastAck   => s.lastAck.word
  | .attempt   => s.attempt.setWidth 32
  | .errIndex  => s.errIndex.setWidth 32
  | .errOffset => s.errOffset.setWidth 32
  | .cksum     => (s.cksumStored ++ s.cksumCalc : BitVec 32)

/-- The bits of a register that a read returns any value of: the reserved bits (10 R46), and all of `CMD` (R23). The bits the
spec says read 0 (R31 to R35) are not among them. -/
def Reg.anyMask : Reg → Word
  | .ctrl      => 0xFFFFFFF8#32
  | .cmd       => 0xFFFFFFFF#32
  | .status    => 0xFFFFF080#32
  | .errcode   => 0xFFFFFF00#32
  | .imgLen    => 0xFFFF0000#32
  | .artLen    => 0xFFFF0000#32
  | .base      => 0xFFFF0000#32
  | .maxRetry  => 0xFFFFFF00#32
  | .blkIdx    => 0#32
  | .progress  => 0#32
  | .lastAck   => 0#32
  | .attempt   => 0#32
  | .errIndex  => 0#32
  | .errOffset => 0#32
  | .cksum     => 0#32

/-- What a read of a register returns, the undefined bits from the draw `any` (10 R46, R23; 20 R61). -/
def State.readReg (s : State) (r : Reg) (any : Word) : Word := s.regValue r ||| (any &&& r.anyMask)

/-- What a `w`-byte read of a target returns, from the draw `any` where the spec says any value (20 R61, R62, R65, R67). -/
def State.readValue (s : State) (w : Nat) (any : Word) : Target → Word
  | .reg r     => s.readReg r any
  | .buf b off => if s.busy then busValue w any.toNat else busValue w (leValue (s.bufBytes b off w))
  | .unmapped  => busValue w any.toNat

/-- A host read (20 R61 to R67): the value returned goes on the bus, nothing of the OFE changes (R69); the draw is fresh. -/
def hostRead (a : Half) (w : Nat) (s : State) : Host.Outcome State Fault Refusal :=
  match target a.toNat w with
  | none   => .fault (.busError a w)
  | some t => .next { s with busRead := some (s.readValue w (Config.anyWord s.draws) t), draws := s.draws + 1 }

/-! ### Writes -/

/-- Issue a command word (40 R90 to R92): the command it names runs; a reserved opcode is BADCMD, or dropped while busy. -/
def issueWord (v : Word) (s : State) : Host.Outcome State Fault Refusal :=
  match decodeWord v with
  | .ok i    => exec i s
  | .error _ => .next (issueReserved s)

/-- A write of a register whose writes are dropped while busy (20 R68). -/
def State.unlessBusy (s : State) (s' : State) : State := if s.busy then s.dropWrite else s'

/-- A host write of a register (10_state.md section 2; 20 R61, R68): read-only registers ignore it. -/
def writeReg (r : Reg) (v : Word) (s : State) : Host.Outcome State Fault Refusal :=
  match r with
  | .ctrl      => .next (s.writeCtrl v)
  | .cmd       => issueWord v s
  | .status    => .next (s.writeStatus v)
  | .imgLen    => .next (s.unlessBusy { s with imgLen := v.extractLsb' 0 16 })
  | .artLen    => .next (s.unlessBusy { s with artLen := v.extractLsb' 0 16 })
  | .base      => .next (s.unlessBusy { s with base := v.extractLsb' 0 16 })
  | .maxRetry  => .next (s.unlessBusy { s with maxRetry := v.extractLsb' 0 8 })
  | .errcode   => .next s
  | .blkIdx    => .next s
  | .progress  => .next s
  | .lastAck   => .next s
  | .attempt   => .next s
  | .errIndex  => .next s
  | .errOffset => .next s
  | .cksum     => .next s

/-- A host write (20 R61 to R68): to a register, to a buffer (dropped while busy), or to nothing. -/
def hostWrite (a : Half) (w : Nat) (v : Word) (s : State) : Host.Outcome State Fault Refusal :=
  match target a.toNat w with
  | none              => .fault (.busError a w)
  | some (.reg r)     => writeReg r v s
  | some (.buf b off) => .next (s.unlessBusy (s.storeBuf b off ((List.range w).map (dataByte v))))
  | some .unmapped    => .next s

/-- One host access (20 R70: one indivisible step). -/
def hostAccess (op : HostOp) (s : State) : Host.Outcome State Fault Refusal :=
  match op with
  | .read a w    => hostRead a w s
  | .write a w v => hostWrite a w v s

end Sys2Proof.Machine
end

