-- ==== Sys2Proof/Machine/Agents.lean ====
section
/-! DEFINITION. One turn of each agent (00_scope.md R15): the engine's step in each state (41 R107, 42 R133, 44 R170), and every
event. -/

namespace Sys2Proof.Machine

/-- The engine's step, or none where it has none: not busy (60 R217), or AWAIT_ACK with an empty FIFO (44 R177). -/
def engineStep (s : State) : Option State :=
  match s.st with
  | .idle       => none
  | .packing    => some (packStep s)
  | .encrypting => some (encryptStep s)
  | .connected  => some (connectedStep s)
  | .sending    => some (sendingStep s)
  | .awaitAck   => awaitAckStep s
  | .nacked     => some (nackedStep s)
  | .done       => none
  | .aborted    => none

/-- The engine's turn: its step, or nothing where it waits. -/
def engineTurn (s : State) : State :=
  match engineStep s with
  | some s' => s'
  | none    => s

/-- One event: a turn of one agent, or an input (00 R15; 70 R230). -/
def runEvent (e : Event) (s : State) : Host.Outcome State Fault Refusal :=
  match e with
  | .host op      => hostAccess op s
  | .engine       => .next (engineTurn s)
  | .device b     => .next (deviceByte b s)
  | .linkFault    => .next (linkFails s)
  | .linkLevel ok => .next { s with linkOk := ok }
  | .timeout      => .next (timeoutFires s)
  | .reset        => .next s.resetEvent

/-- One step: the first event of the schedule, or, where none is left, the engine's turn (20 R71; log 1). -/
def takeStep (s : State) : Host.Outcome State Fault Refusal :=
  match s.schedule with
  | []        => .next (engineTurn s)
  | e :: rest => runEvent e (s.withSchedule rest)

/-- The host's write of a command word to `CMD` (30 R80, R85; 40 R90). -/
def issueEvent (v : Word) : Event := .host (.write 0x0004#16 4 v)

end Sys2Proof.Machine
end

