-- ==== Sys2Proof/Machine/Program.lean ====
section
/-! DEFINITION. The spec's notation for host programs (30_encoding.md R85, R86) as events of a schedule. -/

namespace Sys2Proof.Machine

/-- `wr NAME, v` (30 R85). -/
def wr (r : Reg) (v : Word) : Event := .host (.write (BitVec.ofNat 16 r.offset) 4 v)

/-- `rd NAME` (30 R85). -/
def rd (r : Reg) : Event := .host (.read (BitVec.ofNat 16 r.offset) 4)

/-- `wrb a, v` (30 R85). -/
def wrb (a : Half) (v : Byte) : Event := .host (.write a 1 (v.setWidth 32))

/-- `wrh a, v` (30 R85). -/
def wrh (a : Half) (v : Half) : Event := .host (.write a 2 (v.setWidth 32))

/-- `wrw a, v` (30 R85). -/
def wrw (a : Half) (v : Word) : Event := .host (.write a 4 v)

/-- `rdb a` (30 R85). -/
def rdb (a : Half) : Event := .host (.read a 1)

/-- `rdh a` (30 R85). -/
def rdh (a : Half) : Event := .host (.read a 2)

/-- `rdw a` (30 R85). -/
def rdw (a : Half) : Event := .host (.read a 4)

/-- A command: `wr CMD, (ARG << 8) OR OPC` (30 R85). -/
def command (i : Instr) : Event := issueEvent (encode i)

/-- `clr`: `wr STATUS, 0x0000002E` (30 R86). -/
def clr : Event := wr .status 0x2E#32

/-- `fill a, b0 b1 ... bn` and `load a, s` (30 R86): one byte write after another. -/
def fill (a : Half) : List Byte → List Event
  | []      => []
  | b :: bs => wrb a b :: fill (a + 1#16) bs

/-- One read of a `wait` (30 R86): `rd STATUS`. -/
def waitRead : Event := rd .status

/-- A `wait` ends after a read whose bit 0, `BUSY`, was 0 (30 R86). -/
def waitOver (s : State) : Bool :=
  match s.busRead with
  | some v => !v.getLsbD 0
  | none   => false

end Sys2Proof.Machine
end

