-- ==== Sys2Proof/Machine/Step.lean ====
section
/-! DEFINITION. The step function, and how a command word is placed so that the next step runs it (log 12). -/

namespace Sys2Proof.Machine

/-- One step of the whole machine (00 R15; 20 R71). -/
def step (s : State) : Host.Outcome State Fault Refusal := takeStep s

/-- `s` with the host's write of the command word whose low `nbits` bits are `w` as the next event (log 12). -/
def State.withFetchWord (s : State) (nbits w : Nat) : State :=
  { s with schedule := issueEvent (BitVec.ofNat 32 (w % 2 ^ nbits)) :: s.schedule }

end Sys2Proof.Machine
end

