-- ==== Sys2Proof/Safety.lean ====
section
/-! DEFINITION. What a sound state of the OFE is (the invariants of 10_state.md, 44 R186 and 60 R211, in one place), and the
rank that bounds a FLASH (44 R184). -/

namespace Sys2Proof.Machine

/-- What holds of the state while a frame is still to be packed (41 R106, R107). -/
structure State.PackingOk (s : State) : Prop where
  more    : s.k < s.nfrm
  count   : s.nfrm = frameCount s.imgLen.toNat
  length  : s.imgLen.toNat ≤ Config.imgMax
  address : s.base.toNat + Config.chunk * (s.nfrm - 1) ≤ 0xFFFF
  command : s.running = some (if s.gen then .generate else .pack)

/-- What holds of the state while a cipher block is still to be encrypted (42 R132, R133, R135). -/
structure State.EncryptingOk (s : State) : Prop where
  more    : s.j < s.nblk16
  count   : Config.blockLen * s.nblk16 = s.artLen.toNat
  length  : s.artLen.toNat ≤ Config.artMax
  command : s.running = some .encrypt ∨ s.running = some .generate

/-- What holds of the state while the port is open (44 R186; 10 R33, R34). In CONNECTED of an empty artifact BLK_IDX = nblk = 0
(44 R173), so there BLK_IDX is at most nblk; in the other states it is less (log 16). -/
structure State.FlashingOk (s : State) : Prop where
  count     : s.artLen.toNat = Config.totalSize * s.nblk
  length    : s.nblk ≤ Config.nMax
  progress  : s.progress.toNat = Config.totalSize * s.blkIdx.toNat
  attempt   : s.attempt.toNat ≤ s.maxRetry.toNat
  connected : s.st = .connected → s.blkIdx = 0#16 ∧ s.txpos = 0
  sending   : s.st = .sending → s.blkIdx.toNat < s.nblk ∧ s.txpos < Config.totalSize
  waiting   : s.st = .awaitAck ∨ s.st = .nacked → s.blkIdx.toNat < s.nblk ∧ s.txpos = Config.totalSize
  command   : s.running = some .flash

/-- The invariant of the OFE: the buffers in canonical form and within their sizes (10 R37, R38); the port open exactly in
CONNECTED, SENDING, AWAIT_ACK and NACKED (44 R186), and nothing queued while it is closed (43 R157); the FIFO within its depth
(10 R43); the cursors of the running command within their ranges (10 R41); `gen` only in a packing phase (10 R41); no
completion flag and no error code while a command runs, and each flag only in its terminal state (40 R91; 60 R203, R204, R211). -/
structure State.Inv (s : State) : Prop where
  imgForm    : s.img.wf = true
  artForm    : s.art.wf = true
  imgFits    : s.img.fits Config.imgMax = true
  artFits    : s.art.fits Config.artMax = true
  port       : s.portOpen = s.st.flashing
  closed     : s.portOpen = false → s.rxq = []
  fifo       : s.rxq.length ≤ s.cfg.rxqDepth
  idle       : s.busy = false → s.running = none
  genPacking : s.gen = true → s.st = .packing
  packing    : s.st = .packing → s.PackingOk
  encrypting : s.st = .encrypting → s.EncryptingOk
  flashing   : s.st.flashing = true → s.FlashingOk
  doneFlag   : s.done = true → s.st = .done
  errFlag    : s.err = true → s.st = .aborted
  errCode    : s.errCode ≠ .noError ↔ s.st = .aborted

/-- While PACKING, the frames already built stand in `ART` (41 R107, R108). -/
def State.PackedPrefix (s : State) : Prop :=
  s.st = .packing → ∀ m, m < s.k → s.artBytes (Config.totalSize * m) Config.totalSize = s.frame m

/-- The rank of the state within one transmission of a protocol block. -/
def EngState.flashPhase (txpos : Nat) : EngState → Nat
  | .connected => 95
  | .sending   => 90 - txpos
  | .awaitAck  => 5
  | .nacked    => 2
  | .idle | .packing | .encrypting | .done | .aborted => 0

/-- A number that every engine step and every timeout of a running FLASH lowers (44 R184): blocks left, then retransmissions left,
then the place within the block. -/
def State.flashRank (s : State) : Nat :=
  ((s.nblk - s.blkIdx.toNat) * 256 + (255 - s.attempt.toNat)) * 100 + s.st.flashPhase s.txpos

/-- The events of one protocol block that the device accepts: 80 bytes sent, `0x56` received and taken (44 R174, R175). -/
def ackedBlock : List Event := List.replicate Config.totalSize .engine ++ [.device Config.ackByte, .engine]

/-- The events of `n` protocol blocks that the device accepts, one after the other. -/
def ackedBlocks : Nat → List Event
  | 0     => []
  | n + 1 => ackedBlock ++ ackedBlocks n

end Sys2Proof.Machine
end

