-- ==== Sys2Proof/Certificates/Slice0/Obligations.lean ====
section
/-! DEFINITION. The statements for the provers, from the numbered rules of spec/. Where a statement gives a next state, the state is
written out field by field from the rule's pseudocode. -/

open Sys2Proof Sys2Proof.Machine

namespace Sys2Proof.Spec

/-- What acceptance clears (40 R91), written out. -/
def accepted (s : State) : State :=
  { s with done := false, err := false, prog := false, matched := false, errCode := .noError }

/-- The end of a command that its acceptance completes (40 R91; 60 R203). -/
def completed (s : State) : State :=
  { accepted s with
    done := true, st := .done, running := none, portOpen := false, rxq := if s.portOpen then [] else s.rxq }

/-- The end of a command that fails a check at its acceptance (40 R91, R93; 60 R204, R205). -/
def refusedWith (c : ErrorCode) (s : State) : State :=
  { accepted s with
    err := true, errCode := c, errIndex := 0#16, errOffset := 0#16, gen := false, st := .aborted, running := none,
    portOpen := false, rxq := if s.portOpen then [] else s.rxq }

/-- The end of a FLASH by an error after its port opened (60 R204, R205). -/
def flashEndedBy (c : ErrorCode) (s : State) : State :=
  { s with
    err := true, errCode := c, errIndex := s.blkIdx, errOffset := BitVec.ofNat 16 (80 * s.blkIdx.toNat), gen := false,
    st := .aborted, running := none, portOpen := false, rxq := [] }

/-- `s` steps to `t` when the engine moves: with the engine's turn next in the schedule, or with nothing left in it. -/
def EngineMoves (s t : State) : Prop :=
  (s.schedule = [] → step s = .next t) ∧
  (∀ rest, s.schedule = .engine :: rest → step s = .next { t with schedule := rest })

/-- The host's write of the word `w` to CMD is the next event. -/
def Issues (s : State) (w : Word) (rest : List Event) : Prop := s.schedule = .host (.write 0x0004#16 4 w) :: rest

end Sys2Proof.Spec

open Sys2Proof.Spec

/-! ### Encoding -/

/-- Decoding the word of a well-formed command gives it back, with every CKSUM index 0..65535; the same through its four bytes.
(30 R80 to R82.) -/
def Obligations.DecodeOfEncode : Prop :=
  ∀ i : Instr, i.wf = true → decodeWord (encode i) = .ok i ∧ decode (wordBytes (encode i)) = .ok (i, [])

/-- 30 R84: every word names exactly one command, matched on bits 7:0 alone, or is reserved; CKSUM's index is bits 23:8 (R81). -/
def Obligations.DecodingIsTotalOnOpcode : Prop :=
  ∀ w : Word,
    (∀ i : Instr, decodeWord w = .ok i ↔
      i.opcode = w.extractLsb' 0 8 ∧ ∀ k, i = .cksum k → k = (w.extractLsb' 8 16).toNat) ∧
    ((∀ i : Instr, i.opcode ≠ w.extractLsb' 0 8) → decodeWord w = .error (.reserved (w.extractLsb' 0 8)))

/-- 30 R87: the reference words, both ways. -/
def Obligations.ReferenceWordsEncodeAndDecode : Prop :=
  encode .nop = 0x00000000#32 ∧ encode .testpat = 0x00000001#32 ∧ encode .pack = 0x00000010#32 ∧
  encode .encrypt = 0x00000011#32 ∧ encode .generate = 0x00000012#32 ∧ encode .flash = 0x00000020#32 ∧
  encode .abort = 0x00000021#32 ∧
  (∀ k, k < 65536 → encode (.cksum k) = (BitVec.ofNat 32 k <<< 8) ||| 0x13#32) ∧
  decodeWord 0x00000313#32 = .ok (.cksum 3) ∧ decodeWord 0x0000BF13#32 = .ok (.cksum 191) ∧
  decodeWord 0xFF000000#32 = .ok .nop ∧ decodeWord 0x00FFFF10#32 = .ok .pack

/-- 40 R90: the host's write of a command word to CMD runs, in that one step, the command the word names. The second clause says the
same of a word placed by withFetchWord, the model's way to load a program (log 12). -/
def Obligations.StepRunsTheCommandWritten : Prop :=
  (∀ (s : State) (w : Word) (i : Instr) (rest : List Event),
    Issues s w rest → decodeWord w = .ok i → step s = exec i { s with schedule := rest }) ∧
  (∀ (s : State) (i : Instr), i.wf = true → step (s.withFetchWord 32 (encode i).toNat) = exec i s)

/-! ### Acceptance -/

/-- 30 R83: a reserved opcode ends at once with BADCMD while not busy, and is dropped while busy. -/
def Obligations.ReservedOpcodeIsBadCmdOrDropped : Prop :=
  ∀ (s : State) (w : Word) (rest : List Event),
    Issues s w rest → (∀ i : Instr, i.opcode ≠ w.extractLsb' 0 8) →
    (s.busy = false → step s = .next { refusedWith .badCmd s with schedule := rest }) ∧
    (s.busy = true → step s = .next { s with schedule := rest, werr := true })

/-- 40 R92: while busy, a command word with ABORT's opcode runs ABORT; every other word, a reserved opcode among them, is dropped: WERR
is set and nothing else changes. -/
def Obligations.BusyCommandsAreDropped : Prop :=
  ∀ (s : State) (w : Word) (rest : List Event), Issues s w rest → s.busy = true →
    (w.extractLsb' 0 8 = 0x21#8 → step s = exec .abort { s with schedule := rest }) ∧
    (w.extractLsb' 0 8 ≠ 0x21#8 → step s = .next { s with schedule := rest, werr := true })

/-- 40 R94: NOP completes at once while not busy; while busy it is dropped and sets WERR. -/
def Obligations.NopCompletes : Prop :=
  ∀ s : State,
    (s.busy = false → exec .nop s = .next (completed s)) ∧ (s.busy = true → exec .nop s = .next { s with werr := true })

/-- 41 R100: TESTPAT on a region longer than 0x3000 or shorter than 256 bytes raises RANGE; else it puts the byte values 0..255 in
IMG[0 .. 256), leaves every other byte of IMG, and completes; nothing else changes. -/
def Obligations.TestpatWritesThePattern : Prop :=
  ∀ s : State, s.busy = false →
    (0x3000 < s.imgLen.toNat ∨ s.imgLen.toNat < 256 → exec .testpat s = .next (refusedWith .range s)) ∧
    (s.img.wf = true → 256 ≤ s.imgLen.toNat → s.imgLen.toNat ≤ 0x3000 →
      ∃ m : Memory, exec .testpat s = .next { completed s with img := m } ∧ m.wf = true ∧
        ∀ n, m.byteAt .img n = if n < 256 then BitVec.ofNat 8 n else s.imgAt n)

/-- 41 R106: PACK raises RANGE on a region above 0x3000 bytes, or one whose last frame address exceeds 0xFFFF; an empty region completes
at once with ART_LEN = 0; any other starts packing its `ceil(L / 64)` frames. No byte of ART changes. -/
def Obligations.PackIsAcceptedOrRefused : Prop :=
  ∀ s : State, s.busy = false →
    (0x3000 < s.imgLen.toNat ∨
      (0 < (s.imgLen.toNat + 63) / 64 ∧ 0xFFFF < s.base.toNat + 64 * ((s.imgLen.toNat + 63) / 64 - 1)) →
      exec .pack s = .next (refusedWith .range s)) ∧
    (s.imgLen = 0#16 → exec .pack s = .next { completed s with artLen := 0#16 }) ∧
    (s.imgLen.toNat ≤ 0x3000 → 0 < (s.imgLen.toNat + 63) / 64 →
      s.base.toNat + 64 * ((s.imgLen.toNat + 63) / 64 - 1) ≤ 0xFFFF →
      exec .pack s = .next { accepted s with
        nfrm := (s.imgLen.toNat + 63) / 64, k := 0, gen := false, st := .packing, running := some .pack })

/-- 42 R135: GENERATE makes the checks of PACK, completes at once on an empty region, and else starts its packing phase. -/
def Obligations.GenerateIsAcceptedOrRefused : Prop :=
  ∀ s : State, s.busy = false →
    (0x3000 < s.imgLen.toNat ∨
      (0 < (s.imgLen.toNat + 63) / 64 ∧ 0xFFFF < s.base.toNat + 64 * ((s.imgLen.toNat + 63) / 64 - 1)) →
      exec .generate s = .next (refusedWith .range s)) ∧
    (s.imgLen = 0#16 → exec .generate s = .next { completed s with artLen := 0#16 }) ∧
    (s.imgLen.toNat ≤ 0x3000 → 0 < (s.imgLen.toNat + 63) / 64 →
      s.base.toNat + 64 * ((s.imgLen.toNat + 63) / 64 - 1) ≤ 0xFFFF →
      exec .generate s = .next { accepted s with
        nfrm := (s.imgLen.toNat + 63) / 64, k := 0, gen := true, st := .packing, running := some .generate })

/-- 42 R132: ENCRYPT raises RANGE above ART_MAX, else ALIGN on a length that is no multiple of 16; an empty artifact completes at once;
any other loads IV and starts. RANGE wins where both apply (60 R207). -/
def Obligations.EncryptIsAcceptedOrRefused : Prop :=
  ∀ s : State, s.busy = false →
    (15360 < s.artLen.toNat → exec .encrypt s = .next (refusedWith .range s)) ∧
    (s.artLen.toNat ≤ 15360 → s.artLen.toNat % 16 ≠ 0 → exec .encrypt s = .next (refusedWith .align s)) ∧
    (s.artLen = 0#16 → exec .encrypt s = .next (completed s)) ∧
    (s.artLen.toNat ≤ 15360 → s.artLen.toNat % 16 = 0 → s.artLen ≠ 0#16 →
      exec .encrypt s = .next { accepted s with
        cv := 0#128, j := 0, nblk16 := s.artLen.toNat / 16, st := .encrypting, running := some .encrypt })

/-- 41 R109: CKSUM raises RANGE when ART_LEN exceeds ART_MAX or the frame is not wholly inside the artifact; else STORED is bytes 6 and 7
of the frame, CALC the checksum of the frame with those bytes zero, MATCH whether they agree. A mismatch is no error, and no other
register or byte changes. -/
def Obligations.CksumRecomputesAndCompares : Prop :=
  ∀ (s : State) (k : Nat), s.busy = false →
    (15360 < s.artLen.toNat ∨ s.artLen.toNat < 80 * (k + 1) → exec (.cksum k) s = .next (refusedWith .range s)) ∧
    (s.artLen.toNat ≤ 15360 → 80 * (k + 1) ≤ s.artLen.toNat →
      ∃ stored computed : Half,
        stored.toNat = get16 s.cfg.byteOrder (s.artAt (80 * k + 6)) (s.artAt (80 * k + 7)) ∧
        computed = cksumOf s.cfg ((List.range 80).map fun t => if t = 6 ∨ t = 7 then 0#8 else s.artAt (80 * k + t)) ∧
        exec (.cksum k) s = .next { completed s with
          cksumCalc := computed, cksumStored := stored, matched := decide (computed = stored) })

/-- 44 R171, R172: FLASH raises RANGE, else FRAMING, else OPEN when link_ok is low, the session registers keeping their values; else it
opens the port and enters CONNECTED with a fresh session. -/
def Obligations.FlashIsAcceptedOrRefused : Prop :=
  ∀ s : State, s.busy = false →
    (15360 < s.artLen.toNat → exec .flash s = .next (refusedWith .range s)) ∧
    (s.artLen.toNat ≤ 15360 → s.artLen.toNat % 80 ≠ 0 → exec .flash s = .next (refusedWith .framing s)) ∧
    (s.artLen.toNat ≤ 15360 → s.artLen.toNat % 80 = 0 → s.linkOk = false →
      exec .flash s = .next (refusedWith .openFailed s)) ∧
    (s.artLen.toNat ≤ 15360 → s.artLen.toNat % 80 = 0 → s.linkOk = true →
      exec .flash s = .next { accepted s with
        portOpen := true, rxq := [], nblk := s.artLen.toNat / 80, blkIdx := 0#16, attempt := 0#8, progress := 0#16,
        lastAck := .none, txpos := 0, st := .connected, running := some .flash })

/-- 44 R182: ABORT of a running command ends it with ABORTED. A FLASH records its block, closes the port, and leaves ART and
ART_LEN; after PACK, GENERATE or ENCRYPT, ART is a fresh draw, and so is ART_LEN unless the command was ENCRYPT. No other
register and no byte of IMG changes. While idle ABORT has no effect. -/
def Obligations.AbortCancels : Prop :=
  (∀ s : State, s.busy = false → exec .abort s = .next s) ∧
  (∀ s : State, s.Inv → s.st.flashing = true → exec .abort s = .next (flashEndedBy .aborted s)) ∧
  (∀ s : State, s.Inv → (s.st = .packing ∨ s.st = .encrypting) →
    exec .abort s = .next { s with
      err := true, errCode := .aborted, errIndex := 0#16, errOffset := 0#16, gen := false, st := .aborted, running := none,
      art := Memory.drawn s.draws
      artLen := if s.running = some .encrypt then s.artLen else Config.anyLen s.draws
      draws := s.draws + 1 })

/-- The frame of the commands at issue: none changes the configuration, an interrupt enable, IMG_LEN, BASE, MAX_RETRY, the inputs
or the transmit stream; none but TESTPAT a byte of IMG, and TESTPAT none outside IMG[0 .. 256); none but ABORT a byte of ART.
(41 R100; 40 R93; 60 R206; 44 R182.) -/
def Obligations.CommandsLeaveTheRestAlone : Prop :=
  ∀ (i : Instr) (s t : State), s.img.wf = true → exec i s = .next t →
    (t.cfg = s.cfg ∧ t.doneIe = s.doneIe ∧ t.errIe = s.errIe ∧ t.progIe = s.progIe ∧ t.imgLen = s.imgLen ∧
      t.base = s.base ∧ t.maxRetry = s.maxRetry ∧ t.linkOk = s.linkOk ∧ t.schedule = s.schedule ∧ t.tx = s.tx ∧
      t.busRead = s.busRead) ∧
    (∀ n, (i = .testpat → 256 ≤ n) → t.imgAt n = s.imgAt n) ∧
    (i ≠ .abort → ∀ n, t.artAt n = s.artAt n) ∧
    ((∀ k, i ≠ .cksum k) → t.cksumCalc = s.cksumCalc ∧ t.cksumStored = s.cksumStored) ∧
    (i ≠ .flash → t.blkIdx = s.blkIdx ∧ t.progress = s.progress ∧ t.lastAck = s.lastAck ∧ t.attempt = s.attempt)

/-! ### The frame packer -/

/-- 41 R102, R103, R105, R110, R111: frame `k` of an image of `L` bytes is 80 bytes: in BYTE_ORDER the magic 0x1337, the address
`B + 64k`, the size `L` of the whole image and the checksum of the frame with a zero checksum field; then the `plen` payload bytes
`IMG[64k ..)`, and a pad of `72 - plen` bytes of that value. -/
def Obligations.FrameLayout : Prop :=
  ∀ (s : State) (k : Nat), s.imgLen.toNat ≤ 0x3000 → 64 * k < s.imgLen.toNat → s.base.toNat + 64 * k ≤ 0xFFFF →
    ∃ (plen : Nat) (addr : Half), plen = min 64 (s.imgLen.toNat - 64 * k) ∧ addr.toNat = s.base.toNat + 64 * k ∧
      (s.frame k).length = 80 ∧
      (s.frame k).take 6 =
        put16 s.cfg.byteOrder 0x1337#16 ++ put16 s.cfg.byteOrder addr ++ put16 s.cfg.byteOrder s.imgLen ∧
      ((s.frame k).drop 6).take 2 =
        put16 s.cfg.byteOrder (cksumOf s.cfg ((s.frame k).take 6 ++ [0#8, 0#8] ++ (s.frame k).drop 8)) ∧
      ((s.frame k).drop 8).take plen = (List.range plen).map (fun t => s.imgAt (64 * k + t)) ∧
      (s.frame k).drop (8 + plen) = List.replicate (72 - plen) (BitVec.ofNat 8 (72 - plen))

/-- 41 R104: the checksum of 80 bytes is, from the sum S of the 40 words in BYTE_ORDER, S < 2^22: under FOLD two end-around carries,
under MOD16 the low 16 bits. -/
def Obligations.CksumIsTheReducedWordSum : Prop :=
  ∀ (p : Params) (f : List Byte), f.length = 80 →
    ∃ S S1 : Nat,
      S = ((List.range 40).map fun m => get16 p.byteOrder (f.getD (2 * m) 0#8) (f.getD (2 * m + 1) 0#8)).sum ∧
      S < 2 ^ 22 ∧ S1 = S / 2 ^ 16 + S % 2 ^ 16 ∧
      (p.cksumMode = .fold → (cksumOf p f).toNat = S1 / 2 ^ 16 + S1 % 2 ^ 16) ∧
      (p.cksumMode = .mod16 → (cksumOf p f).toNat = S % 2 ^ 16)

/-- 41 R112: CKSUM on a frame that the packer wrote, anywhere in the artifact, gives MATCH = 1, in both byte orders and both checksum
modes. -/
def Obligations.CksumMatchesEveryPackedFrame : Prop :=
  ∀ (s : State) (k : Nat) (addr len : Half) (pay : List Byte),
    s.busy = false → s.artLen.toNat ≤ 15360 → 80 * (k + 1) ≤ s.artLen.toNat → pay.length ≤ 64 →
    s.artBytes (80 * k) 80 = frameOf s.cfg addr len pay →
    ∃ t : State, exec (.cksum k) s = .next t ∧ t.matched = true ∧ t.done = true ∧ t.err = false ∧
      t.cksumCalc = t.cksumStored

/-- 41 R113 (a), (b): under FOLD the checksum of a word sum S of 1 up to 2^22 is `((S - 1) mod 0xFFFF) + 1`, never 0. -/
def Obligations.FoldIsTheOnesComplementSum : Prop :=
  ∀ S : Nat, 1 ≤ S → S < 2 ^ 22 →
    (reduceSum .fold S).toNat = (S - 1) % 0xFFFF + 1 ∧ reduceSum .fold S ≠ 0#16

/-- 41 R113 (e): under FOLD, for 80 bytes that are not all zero, computing and storing the checksum big-endian writes the same two
bytes as computing and storing it little-endian. -/
def Obligations.FoldIsByteOrderIndependent : Prop :=
  ∀ f : List Byte, f.length = 80 → (∃ b ∈ f, b ≠ 0#8) →
    put16 .be (reduceSum .fold (wordSum .be f)) = put16 .le (reduceSum .fold (wordSum .le f))

/-- 41 R107: the PACK step writes Frame(k) into ART[80k .. 80k + 80), leaves every other byte, and moves on; after the last frame it
sets ART_LEN to 80 * nfrm and completes a PACK, or starts GENERATE's encryption phase. A GENERATE
keeps the length it replaces, for the host to read until the completing step (70 R237; log 17). -/
def Obligations.PackStepWritesOneFrame : Prop :=
  ∀ s : State, s.Inv → s.st = .packing →
    ∃ m : Memory, m.wf = true ∧
      (∀ n, m.byteAt .art n =
        if 80 * s.k ≤ n ∧ n < 80 * s.k + 80 then (s.frame s.k).getD (n - 80 * s.k) 0#8 else s.artAt n) ∧
      (s.k + 1 < s.nfrm → EngineMoves s { s with art := m, k := s.k + 1 }) ∧
      (s.k + 1 = s.nfrm → s.gen = false → EngineMoves s { s with
        art := m, k := s.k + 1, artLen := BitVec.ofNat 16 (80 * s.nfrm), done := true, st := .done, running := none }) ∧
      (s.k + 1 = s.nfrm → s.gen = true → EngineMoves s { s with
        art := m, k := s.k + 1, artLen := BitVec.ofNat 16 (80 * s.nfrm), artLenBefore := s.artLen, gen := false, cv := 0#128, j := 0,
        nblk16 := 5 * s.nfrm, st := .encrypting })

/-- 41 R108: a PACK left to run ends in DONE with Frame(k) in ART[80k .. 80k + 80) for every k below the frame count, ART_LEN the
whole length, and every byte of ART beyond it unchanged. -/
def Obligations.PackBuildsEveryFrame : Prop :=
  ∀ s : State, s.Inv → s.busy = false → s.schedule = [] → s.imgLen.toNat ≤ 0x3000 → 0 < (s.imgLen.toNat + 63) / 64 →
    s.base.toNat + 64 * ((s.imgLen.toNat + 63) / 64 - 1) ≤ 0xFFFF →
    ∃ s0 t : State, exec .pack s = .next s0 ∧
      Host.Core.run Sys2Proof.core ((s.imgLen.toNat + 63) / 64) s0 = .next t ∧
      t.st = .done ∧ t.done = true ∧ t.artLen.toNat = 80 * ((s.imgLen.toNat + 63) / 64) ∧
      (∀ k, k < (s.imgLen.toNat + 63) / 64 → t.artBytes (80 * k) 80 = s.frame k) ∧
      (∀ n, 80 * ((s.imgLen.toNat + 63) / 64) ≤ n → t.artAt n = s.artAt n)

/-- 41 R107: while PACKING, the frames built so far stand in ART, whatever the other agents do between the engine's steps. -/
def Obligations.StepKeepsThePackedFrames : Prop :=
  ∀ s t : State, s.Inv → s.PackedPrefix → step s = .next t → t.PackedPrefix

/-! ### The cipher engine -/

/-- 42 R133: the ENCRYPT step enciphers block j of ART in place, chained to the block before; after the last it completes. -/
def Obligations.EncryptStepChainsOneBlock : Prop :=
  ∀ s : State, s.Inv → s.st = .encrypting →
    ∃ m : Memory, m.wf = true ∧
      (∀ n, m.byteAt .art n =
        if 16 * s.j ≤ n ∧ n < 16 * s.j + 16
        then (Config.encryptBlock (blockOfBytes (s.artBytes (16 * s.j) 16) ^^^ s.cv)).extractLsb' (8 * (n - 16 * s.j)) 8
        else s.artAt n) ∧
      (s.j + 1 < s.nblk16 → EngineMoves s { s with
        art := m, cv := Config.encryptBlock (blockOfBytes (s.artBytes (16 * s.j) 16) ^^^ s.cv), j := s.j + 1 }) ∧
      (s.j + 1 = s.nblk16 → EngineMoves s { s with
        art := m, cv := Config.encryptBlock (blockOfBytes (s.artBytes (16 * s.j) 16) ^^^ s.cv), j := s.j + 1,
        done := true, st := .done, running := none })

/-- 42 R131, R134: an ENCRYPT left to run ends in DONE with ART[0 .. ART_LEN) the CBC ciphertext, from IV, of what it held at
acceptance; ART_LEN and every byte beyond it are unchanged. -/
def Obligations.EncryptLeavesTheCbcCiphertext : Prop :=
  ∀ s : State, s.Inv → s.busy = false → s.schedule = [] → s.artLen.toNat ≤ 15360 → s.artLen.toNat % 16 = 0 →
    s.artLen ≠ 0#16 →
    ∃ s0 t : State, exec .encrypt s = .next s0 ∧ Host.Core.run Sys2Proof.core (s.artLen.toNat / 16) s0 = .next t ∧
      t.st = .done ∧ t.done = true ∧ t.artLen = s.artLen ∧
      t.artBytes 0 s.artLen.toNat =
        (cbc Config.encryptBlock 0#128
          ((List.range (s.artLen.toNat / 16)).map fun j => blockOfBytes (s.artBytes (16 * j) 16))).flatMap bytesOfBlock ∧
      (∀ n, s.artLen.toNat ≤ n → t.artAt n = s.artAt n)

/-- 42 R135: a GENERATE left to run ends in DONE with ART the CBC ciphertext of the concatenated frames. -/
def Obligations.GenerateLeavesTheEncryptedFrames : Prop :=
  ∀ s : State, s.Inv → s.busy = false → s.schedule = [] → s.imgLen.toNat ≤ 0x3000 → 0 < (s.imgLen.toNat + 63) / 64 →
    s.base.toNat + 64 * ((s.imgLen.toNat + 63) / 64 - 1) ≤ 0xFFFF →
    ∃ s0 t : State, exec .generate s = .next s0 ∧
      Host.Core.run Sys2Proof.core (6 * ((s.imgLen.toNat + 63) / 64)) s0 = .next t ∧
      t.st = .done ∧ t.done = true ∧ t.artLen.toNat = 80 * ((s.imgLen.toNat + 63) / 64) ∧
      t.artBytes 0 (80 * ((s.imgLen.toNat + 63) / 64)) =
        (cbc Config.encryptBlock 0#128 ((List.range (5 * ((s.imgLen.toNat + 63) / 64))).map fun j =>
          blockOfBytes ((((List.range ((s.imgLen.toNat + 63) / 64)).flatMap s.frame).drop (16 * j)).take 16))).flatMap
          bytesOfBlock

/-! ### The sequencer -/

/-- 44 R173: the CONNECTED step ends an empty FLASH in DONE, closing the port, else starts sending. -/
def Obligations.ConnectedStep : Prop :=
  ∀ s : State, s.Inv → s.st = .connected →
    (s.nblk = 0 → EngineMoves s { s with portOpen := false, rxq := [], done := true, st := .done, running := none }) ∧
    (0 < s.nblk → EngineMoves s { s with st := .sending })

/-- 44 R174: the SENDING step puts byte ART[80 i + txpos] on the line, and after byte 79 waits for the acknowledgment. -/
def Obligations.SendingStepSendsOneByte : Prop :=
  ∀ s : State, s.st = .sending →
    EngineMoves s { s with
      tx := s.tx ++ [s.artAt (80 * s.blkIdx.toNat + s.txpos)], txpos := s.txpos + 1,
      st := if s.txpos + 1 = 80 then .awaitAck else .sending }

/-- 44 R175, R178: a waiting success byte 0x56 acknowledges block i: progress, PROG, the next block; after the last block the FLASH
ends in DONE with the port closed. -/
def Obligations.AckByteAdvances : Prop :=
  ∀ (s : State) (q : List Byte), s.Inv → s.st = .awaitAck → s.rxq = 0x56#8 :: q →
    (s.blkIdx.toNat + 1 < s.nblk → EngineMoves s { s with
      rxq := q, lastAck := .received 0x56#8, progress := BitVec.ofNat 16 (80 * (s.blkIdx.toNat + 1)), prog := true,
      attempt := 0#8, blkIdx := BitVec.ofNat 16 (s.blkIdx.toNat + 1), txpos := 0, st := .sending }) ∧
    (s.blkIdx.toNat + 1 = s.nblk → EngineMoves s { s with
      rxq := [], portOpen := false, lastAck := .received 0x56#8, progress := s.artLen, prog := true, attempt := 0#8,
      blkIdx := BitVec.ofNat 16 s.nblk, done := true, st := .done, running := none })

/-- 44 R176, R177: a waiting byte other than 0x56 is a rejection; with no byte waiting the engine has no step, and its turn changes
nothing (the model's choice for an event that is not enabled, log 1). -/
def Obligations.OtherBytesRejectAndAnEmptyQueueWaits : Prop :=
  ∀ s : State, s.st = .awaitAck →
    (∀ (b : Byte) (q : List Byte), s.rxq = b :: q → b ≠ 0x56#8 →
      EngineMoves s { s with rxq := q, lastAck := .received b, st := .nacked }) ∧
    (s.rxq = [] → EngineMoves s s)

/-- 44 R179, R181: the NACKED step retransmits the same block from its first byte, flushing what was received, while ATTEMPT is
below MAX_RETRY; else it gives up with NACK, recording the block. -/
def Obligations.NackedStepRetriesOrGivesUp : Prop :=
  ∀ s : State, s.Inv → s.st = .nacked →
    (s.attempt.toNat < s.maxRetry.toNat → EngineMoves s { s with
      attempt := BitVec.ofNat 8 (s.attempt.toNat + 1), rxq := [], txpos := 0, st := .sending }) ∧
    (s.attempt = s.maxRetry → EngineMoves s (flashEndedBy .nack s))

/-- 44 R180: the timeout, in AWAIT_ACK with no byte waiting, marks LAST_ACK and enters NACKED; anywhere else the timeout event changes
nothing (the model's choice for an event that is not enabled, log 1). -/
def Obligations.TimeoutOnlyOnAnEmptyWait : Prop :=
  ∀ (s : State) (rest : List Event), s.schedule = .timeout :: rest →
    (s.st = .awaitAck → s.rxq = [] → step s = .next { s with schedule := rest, lastAck := .timedOut, st := .nacked }) ∧
    (s.st ≠ .awaitAck ∨ s.rxq ≠ [] → step s = .next { s with schedule := rest })

/-- 43 R155, R156, R157: a byte of the device enters the tail of the FIFO; one too many ends the FLASH with IO; while the port is closed
it is discarded. -/
def Obligations.DeviceBytesQueueOverflowOrVanish : Prop :=
  ∀ (s : State) (b : Byte) (rest : List Event), s.Inv → s.schedule = .device b :: rest →
    (s.portOpen = true → s.rxq.length < s.cfg.rxqDepth → step s = .next { s with schedule := rest, rxq := s.rxq ++ [b] }) ∧
    (s.portOpen = true → s.rxq.length = s.cfg.rxqDepth →
      step s = .next { flashEndedBy .io s with schedule := rest }) ∧
    (s.portOpen = false → step s = .next { s with schedule := rest })

/-- 43 R158: a link fault while the port is open ends the FLASH at once with IO, recording the block; PROGRESS keeps the bytes
acknowledged so far. -/
def Obligations.LinkFaultEndsTheFlash : Prop :=
  ∀ (s : State) (rest : List Event), s.Inv → s.portOpen = true → s.schedule = .linkFault :: rest →
    step s = .next { flashEndedBy .io s with schedule := rest }

/-- 44 R174, R178: a FLASH whose device accepts every block ends in DONE, and has sent exactly ART[0 .. ART_LEN), in order. -/
def Obligations.AcceptedFlashSendsTheArtifact : Prop :=
  ∀ (s : State) (n : Nat), s.Inv → s.busy = false → s.linkOk = true → 1 ≤ s.cfg.rxqDepth → 1 ≤ n → n ≤ 192 →
    s.artLen.toNat = 80 * n → s.schedule = .engine :: ackedBlocks n →
    ∃ s0 t : State, exec .flash s = .next s0 ∧ Host.Core.run Sys2Proof.core (1 + 82 * n) s0 = .next t ∧
      t.st = .done ∧ t.done = true ∧ t.portOpen = false ∧ t.tx = s.tx ++ s.artBytes 0 (80 * n) ∧
      t.progress = s.artLen ∧ t.blkIdx.toNat = n ∧ t.lastAck = .received 0x56#8

/-- 44 R184: every engine step and every timeout of a running FLASH ends it or lowers its rank, and no step of any agent raises it, so
a FLASH takes a bounded number of engine steps and timeouts; and every state of a FLASH but AWAIT_ACK with an empty FIFO has an
engine step. -/
def Obligations.FlashStepsAreBounded : Prop :=
  ∀ s : State, s.Inv → s.st.flashing = true →
    (∀ t, engineStep s = some t → t.st.flashing = false ∨ t.flashRank < s.flashRank) ∧
    (s.st = .awaitAck → s.rxq = [] → (timeoutFires s).flashRank < s.flashRank) ∧
    (∀ t, step s = .next t → t.st.flashing = false ∨ t.flashRank ≤ s.flashRank) ∧
    (engineStep s = none ↔ s.st = .awaitAck ∧ s.rxq = [])

/-- 43 R154, R161: a byte is sent only by the SENDING step, the engine's turn in SENDING: byte ART[80 i + txpos], at the end of the
transmit stream. -/
def Obligations.OnlySendingTransmits : Prop :=
  ∀ s t : State, step s = .next t →
    t.tx = s.tx ∨
      ((s.schedule = [] ∨ ∃ rest, s.schedule = .engine :: rest) ∧ s.st = .sending ∧
        t.tx = s.tx ++ [s.artAt (80 * s.blkIdx.toNat + s.txpos)])

/-- 20 R73; 44 R186: while the port stays open, BLK_IDX moves only by one, only when a waiting 0x56 is taken after a whole block was
sent, and PROGRESS never decreases. -/
def Obligations.BlocksAreAcknowledgedInOrder : Prop :=
  ∀ s t : State, s.Inv → s.st.flashing = true → step s = .next t → t.st.flashing = true →
    (t.blkIdx = s.blkIdx ∨
      (s.st = .awaitAck ∧ s.txpos = 80 ∧ s.rxq.head? = some 0x56#8 ∧ t.blkIdx.toNat = s.blkIdx.toNat + 1)) ∧
    s.progress.toNat ≤ t.progress.toNat

/-- 60 R206: no step of a FLASH but a reset changes a byte of a buffer, ART_LEN, IMG_LEN, BASE or MAX_RETRY. -/
def Obligations.FlashLeavesTheArtifact : Prop :=
  ∀ s t : State, s.Inv → s.st.flashing = true → step s = .next t → (∀ rest, s.schedule ≠ .reset :: rest) →
    t.art = s.art ∧ t.img = s.img ∧ t.artLen = s.artLen ∧ t.imgLen = s.imgLen ∧ t.base = s.base ∧
    t.maxRetry = s.maxRetry

/-! ### The host's accesses -/

/-- 20 R64 (and R61, R62, R65): a step faults exactly when the next event is a host access of a width other than 1, 2 or 4, or at an
address that is no multiple of its width, or to the registers with a width other than 4; no step is refused. A misaligned access
to an unmapped address is a bus error by inference (log 10). -/
def Obligations.OnlyIllegalAccessesFault : Prop :=
  ∀ s : State,
    ((∃ f, step s = .fault f) ↔
      ∃ (a : Half) (w : Nat) (rest : List Event),
        (s.schedule = .host (.read a w) :: rest ∨ ∃ v, s.schedule = .host (.write a w v) :: rest) ∧
        ¬ ((w = 1 ∨ w = 2 ∨ w = 4) ∧ a.toNat % w = 0 ∧ (a.toNat < 0x3C → w = 4))) ∧
    ∀ r, step s ≠ .refused r

/-- 20 R62: while idle, a buffer read returns the bytes at the address, the lowest the least significant; nothing of the OFE
changes (R69). -/
def Obligations.BufferReadsAreLittleEndian : Prop :=
  ∀ (s : State) (a : Half) (w : Nat) (rest : List Event),
    s.busy = false → (w = 1 ∨ w = 2 ∨ w = 4) → a.toNat % w = 0 → s.schedule = .host (.read a w) :: rest →
    (0x1000 ≤ a.toNat → a.toNat < 0x4000 → ∃ v : Word,
      step s = .next { s with schedule := rest, busRead := some v, draws := s.draws + 1 } ∧
      (∀ t, t < 4 → v.extractLsb' (8 * t) 8 = if t < w then s.imgAt (a.toNat - 0x1000 + t) else 0#8)) ∧
    (0x4000 ≤ a.toNat → a.toNat < 0x7C00 → ∃ v : Word,
      step s = .next { s with schedule := rest, busRead := some v, draws := s.draws + 1 } ∧
      (∀ t, t < 4 → v.extractLsb' (8 * t) 8 = if t < w then s.artAt (a.toNat - 0x4000 + t) else 0#8))

/-- 20 R62: while idle, a buffer write sets the bytes at the address, the least significant at the lowest, and no other byte and no
register. -/
def Obligations.BufferWritesAreLittleEndian : Prop :=
  ∀ (s : State) (a : Half) (w : Nat) (v : Word) (rest : List Event),
    s.busy = false → s.img.wf = true → s.art.wf = true → (w = 1 ∨ w = 2 ∨ w = 4) → a.toNat % w = 0 →
    s.schedule = .host (.write a w v) :: rest →
    (0x1000 ≤ a.toNat → a.toNat < 0x4000 → ∃ m : Memory,
      step s = .next { s with schedule := rest, img := m } ∧ m.wf = true ∧
      (∀ n, m.byteAt .img n = if a.toNat - 0x1000 ≤ n ∧ n < a.toNat - 0x1000 + w
        then v.extractLsb' (8 * (n - (a.toNat - 0x1000))) 8 else s.imgAt n)) ∧
    (0x4000 ≤ a.toNat → a.toNat < 0x7C00 → ∃ m : Memory,
      step s = .next { s with schedule := rest, art := m } ∧ m.wf = true ∧
      (∀ n, m.byteAt .art n = if a.toNat - 0x4000 ≤ n ∧ n < a.toNat - 0x4000 + w
        then v.extractLsb' (8 * (n - (a.toNat - 0x4000))) 8 else s.artAt n))

/-- 20 R67, R68: while busy, a write of a buffer or of IMG_LEN, ART_LEN, BASE or MAX_RETRY is dropped and sets WERR; a write to a
read-only register, busy or not, has no effect and does not set it. -/
def Obligations.BusyWritesAreDroppedWithWerr : Prop :=
  ∀ (s : State) (a : Half) (w : Nat) (v : Word) (rest : List Event), s.schedule = .host (.write a w v) :: rest →
    (s.busy = true → (w = 1 ∨ w = 2 ∨ w = 4) → a.toNat % w = 0 → 0x1000 ≤ a.toNat → a.toNat < 0x7C00 →
      step s = .next { s with schedule := rest, werr := true }) ∧
    (s.busy = true → w = 4 → a.toNat ∈ [0x10, 0x14, 0x18, 0x1C] →
      step s = .next { s with schedule := rest, werr := true }) ∧
    (w = 4 → a.toNat ∈ [0x0C, 0x20, 0x24, 0x28, 0x2C, 0x30, 0x34, 0x38] → step s = .next { s with schedule := rest })

/-- 20 R65: an aligned access of width 1, 2 or 4 to an unmapped range, busy or not, is no bus error: a write has no effect, a read
returns some value and changes nothing of the OFE. -/
def Obligations.UnmappedAccessesHaveNoEffect : Prop :=
  ∀ (s : State) (a : Half) (w : Nat) (rest : List Event),
    (w = 1 ∨ w = 2 ∨ w = 4) → a.toNat % w = 0 → (0x3C ≤ a.toNat ∧ a.toNat < 0x1000) ∨ 0x7C00 ≤ a.toNat →
    (∀ v, s.schedule = .host (.write a w v) :: rest → step s = .next { s with schedule := rest }) ∧
    (s.schedule = .host (.read a w) :: rest →
      ∃ v : Word, step s = .next { s with schedule := rest, busRead := some v, draws := s.draws + 1 })

/-- 10 R25: writing 1 to DONE, ERR, PROG or WERR of STATUS clears it, busy or not, and changes nothing else. -/
def Obligations.StatusWriteClearsFlags : Prop :=
  ∀ (s : State) (v : Word) (rest : List Event), s.schedule = .host (.write 0x08#16 4 v) :: rest →
    step s = .next { s with
      schedule := rest
      done := if v.getLsbD 1 then false else s.done
      err  := if v.getLsbD 2 then false else s.err
      prog := if v.getLsbD 3 then false else s.prog
      werr := if v.getLsbD 5 then false else s.werr }

/-- 10 R22, R27 to R30: a write of CTRL takes the three enables, busy or not; while not busy a write of IMG_LEN, ART_LEN, BASE or
MAX_RETRY stores its low bits. Nothing else changes. -/
def Obligations.RegisterWritesTakeEffect : Prop :=
  ∀ (s : State) (v : Word) (rest : List Event),
    (s.schedule = .host (.write 0x00#16 4 v) :: rest → step s = .next { s with
      schedule := rest, doneIe := v.getLsbD 0, errIe := v.getLsbD 1, progIe := v.getLsbD 2 }) ∧
    (s.busy = false →
      (s.schedule = .host (.write 0x10#16 4 v) :: rest →
        step s = .next { s with schedule := rest, imgLen := v.extractLsb' 0 16 }) ∧
      (s.schedule = .host (.write 0x14#16 4 v) :: rest →
        step s = .next { s with schedule := rest, artLen := v.extractLsb' 0 16 }) ∧
      (s.schedule = .host (.write 0x18#16 4 v) :: rest →
        step s = .next { s with schedule := rest, base := v.extractLsb' 0 16 }) ∧
      (s.schedule = .host (.write 0x1C#16 4 v) :: rest →
        step s = .next { s with schedule := rest, maxRetry := v.extractLsb' 0 8 }))

/-- 10 R24: what a read of STATUS shows, bit by bit (bits 7 and 31:12 are reserved, R46: any value). -/
def Obligations.StatusReadShowsTheFlags : Prop :=
  ∀ (s : State) (rest : List Event), s.schedule = .host (.read 0x08#16 4) :: rest →
    ∃ v : Word, step s = .next { s with schedule := rest, busRead := some v, draws := s.draws + 1 } ∧
      v.getLsbD 0 = s.busy ∧ v.getLsbD 1 = s.done ∧ v.getLsbD 2 = s.err ∧ v.getLsbD 3 = s.prog ∧
      v.getLsbD 4 = s.matched ∧ v.getLsbD 5 = s.werr ∧ v.getLsbD 6 = s.portOpen ∧ v.extractLsb' 8 4 = s.st.code

/-- 10 R26 to R36: what a read of the other result and length registers shows in its defined bits; the upper bits of BLK_IDX,
PROGRESS, LAST_ACK, ATTEMPT, ERR_INDEX and ERR_OFFSET read 0. ART_LEN in a GENERATE's encryption phase is the length of before
(70 R237; log 17). -/
def Obligations.RegisterReadsShowTheirFields : Prop :=
  ∀ (s : State) (r : Reg) (rest : List Event), s.schedule = .host (.read (BitVec.ofNat 16 r.offset) 4) :: rest →
    ∃ v : Word, step s = .next { s with schedule := rest, busRead := some v, draws := s.draws + 1 } ∧
      (r = .ctrl → v.getLsbD 0 = s.doneIe ∧ v.getLsbD 1 = s.errIe ∧ v.getLsbD 2 = s.progIe) ∧
      (r = .errcode → v.extractLsb' 0 8 = s.errCode.code) ∧
      (r = .imgLen → v.extractLsb' 0 16 = s.imgLen) ∧
      (r = .artLen → v.extractLsb' 0 16 =
        if s.st = .encrypting ∧ s.running = some .generate then s.artLenBefore else s.artLen) ∧
      (r = .base → v.extractLsb' 0 16 = s.base) ∧ (r = .maxRetry → v.extractLsb' 0 8 = s.maxRetry) ∧
      (r = .blkIdx → v.toNat = s.blkIdx.toNat) ∧ (r = .progress → v.toNat = s.progress.toNat) ∧
      (r = .attempt → v.toNat = s.attempt.toNat) ∧ (r = .errIndex → v.toNat = s.errIndex.toNat) ∧
      (r = .errOffset → v.toNat = s.errOffset.toNat) ∧
      (r = .cksum → v.extractLsb' 0 16 = s.cksumCalc ∧ v.extractLsb' 16 16 = s.cksumStored) ∧
      (r = .lastAck → v.toNat = match s.lastAck with
        | .none       => 0
        | .received b => 0x100 + b.toNat
        | .timedOut   => 0x200)

/-- 70 R237: a step after which a command still runs leaves what a host reads in ART_LEN and CKSUM, and MATCH but for the clear of an
acceptance (40 R91): the new values come only with the completing step. That a GENERATE's new ART_LEN is hidden from the host
until then, and not from the engine, is the model's inference (log 17). -/
def Obligations.ResultsShowOnlyFromTheCompletingStep : Prop :=
  ∀ s t : State, s.Inv → step s = .next t → t.busy = true →
    t.shownArtLen = s.shownArtLen ∧ t.cksumCalc = s.cksumCalc ∧ t.cksumStored = s.cksumStored ∧
    (t.matched = s.matched ∨ (s.busy = false ∧ t.matched = false))

/-- 20 R65, R67, R68, R69; 40 R92: while busy, no host access but an ABORT command reaches anything but the interrupt enables, the
clearable flags and the bus: buffers, lengths, engine state, FIFO and session stay. -/
def Obligations.HostCannotDisturbARunningCommand : Prop :=
  ∀ (op : HostOp) (s t : State), s.busy = true → hostAccess op s = .next t →
    (∀ a v, op = .write a 4 v → a = 0x0004#16 → v.extractLsb' 0 8 ≠ 0x21#8) →
    t = { s with
      doneIe := t.doneIe, errIe := t.errIe, progIe := t.progIe, done := t.done, err := t.err, prog := t.prog,
      werr := t.werr, busRead := t.busRead, draws := t.draws }

/-! ### Interrupt, reset and whole-machine rules -/

/-- 60 R209: a pending DONE, ERR or PROG is cleared only by a host write of 1 to its STATUS bit, by the acceptance of a command while
not busy, or by reset. -/
def Obligations.PendingFlagsAreClearedOnlyByHostOrReset : Prop :=
  ∀ s t : State, step s = .next t →
    (s.done = true ∧ t.done = false ∨ s.err = true ∧ t.err = false ∨ s.prog = true ∧ t.prog = false) →
    ∃ rest, s.schedule = .reset :: rest ∨
      (∃ v, s.schedule = .host (.write 0x0004#16 4 v) :: rest ∧ s.busy = false ∧ v.extractLsb' 0 8 ≠ 0x21#8) ∨
      (∃ v, s.schedule = .host (.write 0x0008#16 4 v) :: rest ∧
        (s.done = true → t.done = false → v.getLsbD 1 = true) ∧ (s.err = true → t.err = false → v.getLsbD 2 = true) ∧
        (s.prog = true → t.prog = false → v.getLsbD 3 = true))

/-- 10 R45: irq is high exactly when one of DONE, ERR, PROG is pending with its enable set, and it is low after reset; and only a host
write or a reset ever lowers it (by inference from 60 R209, 10 R22, R25 and 40 R91). -/
def Obligations.OnlyHostOrResetLowersIrq : Prop :=
  State.reset.irq = false ∧
  (∀ s : State, s.irq = true ↔
    (s.done = true ∧ s.doneIe = true) ∨ (s.err = true ∧ s.errIe = true) ∨ (s.prog = true ∧ s.progIe = true)) ∧
  ∀ s t : State, step s = .next t → s.irq = true → t.irq = false →
    ∃ rest, s.schedule = .reset :: rest ∨ ∃ a w v, s.schedule = .host (.write a w v) :: rest

/-- 60 R217: while not busy, only a command or a reset changes the engine state or a register but those the host writes: nothing is
sent, and the port, the cursors and the result registers keep their values. Where the step is no host access either, every field
keeps its value but the inputs to come and the input link_ok. -/
def Obligations.IdleEngineStays : Prop :=
  ∀ s t : State, s.Inv → s.busy = false → step s = .next t →
    (∀ v rest, s.schedule ≠ .host (.write 0x0004#16 4 v) :: rest) → (∀ rest, s.schedule ≠ .reset :: rest) →
    t.st = s.st ∧ t.tx = s.tx ∧ t.portOpen = s.portOpen ∧ t.rxq = s.rxq ∧ t.k = s.k ∧ t.nfrm = s.nfrm ∧ t.j = s.j ∧
    t.nblk16 = s.nblk16 ∧ t.nblk = s.nblk ∧ t.txpos = s.txpos ∧ t.gen = s.gen ∧ t.cv = s.cv ∧ t.blkIdx = s.blkIdx ∧
    t.progress = s.progress ∧ t.lastAck = s.lastAck ∧ t.attempt = s.attempt ∧ t.errCode = s.errCode ∧
    t.errIndex = s.errIndex ∧ t.errOffset = s.errOffset ∧ t.cksumCalc = s.cksumCalc ∧ t.cksumStored = s.cksumStored ∧
    t.matched = s.matched ∧ t.running = s.running ∧
    ((∀ op rest, s.schedule ≠ .host op :: rest) → t = { s with schedule := t.schedule, linkOk := t.linkOk })

/-- 70 R230, R231: the reset event, at any step, puts every register and the internal state at its reset value, with no command pending
and irq low. -/
def Obligations.ResetEventResetsEverything : Prop :=
  ∀ (s : State) (rest : List Event), s.schedule = .reset :: rest →
    ∃ t : State, step s = .next t ∧
      (t.doneIe = false ∧ t.errIe = false ∧ t.progIe = false) ∧
      (t.done = false ∧ t.err = false ∧ t.prog = false ∧ t.matched = false ∧ t.werr = false) ∧ t.errCode = .noError ∧
      t.imgLen = 0#16 ∧ t.artLen = 0#16 ∧ t.base = 0x1000#16 ∧ t.maxRetry = s.cfg.retryDefault ∧ t.blkIdx = 0#16 ∧
      t.progress = 0#16 ∧ t.lastAck.word = 0#32 ∧ t.attempt = 0#8 ∧ t.errIndex = 0#16 ∧ t.errOffset = 0#16 ∧
      t.cksumCalc = 0#16 ∧ t.cksumStored = 0#16 ∧ t.st = .idle ∧ t.busy = false ∧
      (t.k = 0 ∧ t.nfrm = 0 ∧ t.j = 0 ∧ t.nblk16 = 0 ∧ t.nblk = 0 ∧ t.txpos = 0) ∧ t.gen = false ∧ t.rxq = [] ∧
      t.portOpen = false ∧ t.running = none ∧ t.irq = false

/-- 10_state.md, 70 R230: the register values of the machine right after power-on, with the default RETRY_DEFAULT of 3. -/
def Obligations.ResetRegisterValues : Prop :=
  State.reset.ctrlWord = 0#32 ∧ State.reset.statusWord = 0#32 ∧ State.reset.errCode.code = 0#8 ∧
  State.reset.imgLen = 0#16 ∧ State.reset.artLen = 0#16 ∧ State.reset.base = 0x1000#16 ∧
  State.reset.maxRetry = State.reset.cfg.retryDefault ∧ State.reset.cfg.retryDefault = 3#8 ∧
  State.reset.blkIdx = 0#16 ∧ State.reset.progress = 0#16 ∧ State.reset.lastAck.word = 0#32 ∧
  State.reset.attempt = 0#8 ∧ State.reset.errIndex = 0#16 ∧ State.reset.errOffset = 0#16 ∧
  State.reset.cksumCalc = 0#16 ∧ State.reset.cksumStored = 0#16 ∧ State.reset.irq = false ∧
  State.reset.st = .idle ∧ State.reset.busy = false ∧ State.reset.portOpen = false ∧ State.reset.rxq = [] ∧
  State.reset.gen = false

/-- 10 R20: no step changes the configuration. -/
def Obligations.ConfigurationNeverChanges : Prop :=
  ∀ s t : State, step s = .next t → t.cfg = s.cfg

/-- The state right after reset is sound. -/
def Obligations.ResetIsSound : Prop := State.reset.Inv

/-- 44 R186, 10 R33 to R44, 43 R157, 60 R211: every step of every agent keeps the invariant of Safety.lean. -/
def Obligations.StepKeepsTheInvariant : Prop :=
  ∀ s t : State, s.Inv → step s = .next t → t.Inv
end

