-- ==== Sys2Proof/Laws/Memory.lean ====
section
/-! SUPPORT. The laws of the buffers: read after write, the canonical form and the size are kept by every memory operation. -/

namespace Sys2Proof.Machine

/-! ### The canonical form -/

theorem risingAbove_mono {a b : Nat} (h : a ≤ b) : ∀ {cs : List Host.Cell}, risingAbove b cs = true → risingAbove a cs = true
  | [], _           => rfl
  | (c, v) :: cs, r => by
    simp only [risingAbove, Bool.and_eq_true, decide_eq_true_eq] at r ⊢
    exact ⟨by omega, r.2⟩

theorem rising_of_above {a : Nat} : ∀ {cs : List Host.Cell}, risingAbove a cs = true → rising cs = true
  | [], _           => rfl
  | (b, v) :: cs, r => by simp only [risingAbove, Bool.and_eq_true] at r; exact r.2

theorem risingAbove_insertCell {b a : Nat} {v : Byte} (h : b < a) :
    ∀ {cs : List Host.Cell}, risingAbove b cs = true → risingAbove b (insertCell cs a v) = true
  | [], _           => by simp [insertCell, risingAbove, h]
  | (c, u) :: cs, r => by
    simp only [risingAbove, Bool.and_eq_true, decide_eq_true_eq] at r
    unfold insertCell
    split
    · simp [risingAbove, *]
    · split
      · simp [risingAbove, *]
      · have hc : c < a := by omega
        simp [risingAbove, r.1, risingAbove_insertCell hc r.2]

theorem rising_insertCell {a : Nat} {v : Byte} :
    ∀ {cs : List Host.Cell}, rising cs = true → rising (insertCell cs a v) = true
  | [], _           => rfl
  | (c, u) :: cs, r => by
    simp only [rising] at r
    unfold insertCell
    split
    · simp [rising, risingAbove, *]
    · split
      · simp_all [rising]
      · have hc : c < a := by omega
        simp [rising, risingAbove_insertCell hc r]

/-- Storing a byte keeps the canonical form. -/
theorem Memory.wf_write {m : Memory} (h : m.wf = true) (a : Nat) (v : Byte) : (m.write a v).wf = true :=
  rising_insertCell h

/-- Storing bytes keeps the canonical form. -/
theorem Memory.wf_writeBytes : ∀ (vs : List Byte) {m : Memory} (a : Nat), m.wf = true → (m.writeBytes a vs).wf = true
  | [], _, _, h      => h
  | v :: vs, _, a, h => Memory.wf_writeBytes vs (a + 1) (Memory.wf_write h a v)

/-- A drawn buffer is in canonical form. -/
@[simp] theorem Memory.wf_drawn (d : Nat) : (Memory.drawn d).wf = true := rfl

/-- A drawn buffer is within every size. -/
@[simp] theorem Memory.fits_drawn (d n : Nat) : (Memory.drawn d).fits n = true := rfl

/-- The buffers right after reset are in canonical form. -/
theorem reset_memory_wf : State.reset.img.wf = true ∧ State.reset.art.wf = true := ⟨rfl, rfl⟩

/-! ### The size -/

theorem mem_insertCell {a : Nat} {v : Byte} {c : Host.Cell} :
    ∀ {cs : List Host.Cell}, c ∈ insertCell cs a v → c = (a, v) ∨ c ∈ cs
  | [], h           => by simp [insertCell] at h; exact .inl h
  | (b, u) :: cs, h => by
    unfold insertCell at h
    split at h
    · simp only [List.mem_cons] at h ⊢; tauto
    · split at h
      · simp only [List.mem_cons] at h ⊢; tauto
      · rcases List.mem_cons.1 h with h | h
        · exact .inr (by simp [h])
        · rcases mem_insertCell h with h | h
          · exact .inl h
          · exact .inr (by simp [h])

/-- A store inside a size keeps the buffer within it. -/
theorem Memory.fits_write {m : Memory} {n a : Nat} (h : m.fits n = true) (ha : a < n) (v : Byte) :
    (m.write a v).fits n = true := by
  simp only [Memory.fits, List.all_eq_true, decide_eq_true_eq] at h ⊢
  intro c hc
  rcases mem_insertCell hc with rfl | hc
  · exact ha
  · exact h c hc

/-- Stores inside a size keep the buffer within it. -/
theorem Memory.fits_writeBytes {n : Nat} : ∀ (vs : List Byte) {m : Memory} {a : Nat},
    m.fits n = true → a + vs.length ≤ n → (m.writeBytes a vs).fits n = true
  | [], _, _, h, _      => h
  | v :: vs, _, a, h, l => by
    simp only [List.length_cons] at l
    exact Memory.fits_writeBytes vs (Memory.fits_write h (by omega) v) (by omega)

/-! ### Reading after writing -/

/-- After a store in a canonical list, the stored address holds the byte and every other address what it held. -/
theorem lookup_insertCell {a v x} : ∀ {cs : List Host.Cell}, rising cs = true →
    lookup (insertCell cs a v) x = if x = a then some v else lookup cs x
  | [], _           => by simp [insertCell, lookup]
  | (c, u) :: cs, r => by
    have notBelow : ∀ {b : Nat} {l : List Host.Cell}, risingAbove b l = true → ∀ y, y ≤ b → lookup l y = none := by
      intro b l
      induction l generalizing b with
      | nil => intro _ _ _; rfl
      | cons d l ih =>
        intro hr y hy
        obtain ⟨d1, d2⟩ := d
        simp only [risingAbove, Bool.and_eq_true, decide_eq_true_eq] at hr
        have : y ≠ d1 := by omega
        simp only [lookup, this, if_false]
        exact ih hr.2 y (by omega)
    simp only [rising] at r
    unfold insertCell
    split
    · next h =>
      by_cases hx : x = a
      · simp [lookup, hx]
      · simp [lookup, hx]
    · split
      · next h1 h2 =>
        by_cases hx : x = a
        · simp [lookup, hx]
        · have : x ≠ c := by omega
          simp [lookup, hx, this]
      · next h1 h2 =>
        simp only [lookup]
        by_cases hx : x = c
        · have : x ≠ a := by omega
          simp [hx]; omega
        · simp only [hx, if_false]
          exact lookup_insertCell (rising_of_above r)

/-- A store sets the draw of no byte. -/
@[simp] theorem Memory.draw_write (m : Memory) (a : Nat) (v : Byte) : (m.write a v).draw = m.draw := rfl

/-- Read after write: the stored byte at its address, every other byte as before. -/
theorem Memory.byteAt_write {m : Memory} (h : m.wf = true) (b : Buf) (a x : Nat) (v : Byte) :
    (m.write a v).byteAt b x = if x = a then v else m.byteAt b x := by
  have hl : lookup (m.write a v).cells x = if x = a then some v else lookup m.cells x := lookup_insertCell h
  unfold Memory.byteAt
  rw [hl]
  by_cases hx : x = a <;> simp [hx]

/-- Read after a store of several bytes: the bytes stored at their addresses, every other byte as before. -/
theorem Memory.byteAt_writeBytes : ∀ (vs : List Byte) {m : Memory} (b : Buf) (a x : Nat), m.wf = true →
    (m.writeBytes a vs).byteAt b x = if a ≤ x ∧ x < a + vs.length then vs.getD (x - a) 0#8 else m.byteAt b x
  | [], m, b, a, x, _      => by simp [Memory.writeBytes]
  | v :: vs, m, b, a, x, h => by
    rw [Memory.writeBytes, Memory.byteAt_writeBytes vs b (a + 1) x (Memory.wf_write h a v), Memory.byteAt_write h]
    simp only [List.length_cons]
    by_cases hx : x = a
    · subst hx
      simp
    · by_cases hin : a + 1 ≤ x ∧ x < a + 1 + vs.length
      · have h2 : a ≤ x ∧ x < a + (vs.length + 1) := by omega
        have h3 : x - a = (x - (a + 1)) + 1 := by omega
        simp only [hin, h2, and_self, if_true]
        rw [h3, List.getD_cons_succ]
      · have h2 : ¬ (a ≤ x ∧ x < a + (vs.length + 1)) := by omega
        simp only [hin, h2, if_false, hx]

/-- A store of several bytes leaves every byte outside them alone. -/
theorem Memory.byteAt_writeBytes_outside {m : Memory} (h : m.wf = true) (b : Buf) {a x : Nat} (vs : List Byte)
    (hx : x < a ∨ a + vs.length ≤ x) : (m.writeBytes a vs).byteAt b x = m.byteAt b x := by
  rw [Memory.byteAt_writeBytes vs b a x h, if_neg (by omega)]

/-- Reading back the bytes just stored gives them. -/
theorem Memory.readBack {m : Memory} (h : m.wf = true) (b : Buf) (a : Nat) (vs : List Byte) :
    ((List.range vs.length).map fun t => (m.writeBytes a vs).byteAt b (a + t)) = vs := by
  apply List.ext_getElem
  · simp
  · intro t h1 h2
    simp only [List.getElem_map, List.getElem_range]
    rw [Memory.byteAt_writeBytes vs b a (a + t) h, if_pos ⟨by omega, by omega⟩]
    simp [h2]

/-- A store keeps the draw of the unwritten bytes. -/
@[simp] theorem Memory.draw_writeBytes : ∀ (vs : List Byte) (m : Memory) (a : Nat), (m.writeBytes a vs).draw = m.draw
  | [], _, _      => rfl
  | v :: vs, m, a => by rw [Memory.writeBytes, Memory.draw_writeBytes vs, Memory.draw_write]

end Sys2Proof.Machine
end

