-- ==== Sys2Proof/Laws/State.lean ====
section
/-! SUPPORT. One lemma per field per named update of State (Machine/Ops.lean), so that no proof unfolds a record update. -/

namespace Sys2Proof.Machine

variable (s : State)

/-! ### withSchedule -/

@[simp] theorem State.withSchedule_cfg (l : List Event) : (s.withSchedule l).cfg = s.cfg := rfl
@[simp] theorem State.withSchedule_doneIe (l : List Event) : (s.withSchedule l).doneIe = s.doneIe := rfl
@[simp] theorem State.withSchedule_errIe (l : List Event) : (s.withSchedule l).errIe = s.errIe := rfl
@[simp] theorem State.withSchedule_progIe (l : List Event) : (s.withSchedule l).progIe = s.progIe := rfl
@[simp] theorem State.withSchedule_done (l : List Event) : (s.withSchedule l).done = s.done := rfl
@[simp] theorem State.withSchedule_err (l : List Event) : (s.withSchedule l).err = s.err := rfl
@[simp] theorem State.withSchedule_prog (l : List Event) : (s.withSchedule l).prog = s.prog := rfl
@[simp] theorem State.withSchedule_matched (l : List Event) : (s.withSchedule l).matched = s.matched := rfl
@[simp] theorem State.withSchedule_werr (l : List Event) : (s.withSchedule l).werr = s.werr := rfl
@[simp] theorem State.withSchedule_errCode (l : List Event) : (s.withSchedule l).errCode = s.errCode := rfl
@[simp] theorem State.withSchedule_imgLen (l : List Event) : (s.withSchedule l).imgLen = s.imgLen := rfl
@[simp] theorem State.withSchedule_artLen (l : List Event) : (s.withSchedule l).artLen = s.artLen := rfl
@[simp] theorem State.withSchedule_artLenBefore (l : List Event) : (s.withSchedule l).artLenBefore = s.artLenBefore := rfl
@[simp] theorem State.withSchedule_base (l : List Event) : (s.withSchedule l).base = s.base := rfl
@[simp] theorem State.withSchedule_maxRetry (l : List Event) : (s.withSchedule l).maxRetry = s.maxRetry := rfl
@[simp] theorem State.withSchedule_blkIdx (l : List Event) : (s.withSchedule l).blkIdx = s.blkIdx := rfl
@[simp] theorem State.withSchedule_progress (l : List Event) : (s.withSchedule l).progress = s.progress := rfl
@[simp] theorem State.withSchedule_lastAck (l : List Event) : (s.withSchedule l).lastAck = s.lastAck := rfl
@[simp] theorem State.withSchedule_attempt (l : List Event) : (s.withSchedule l).attempt = s.attempt := rfl
@[simp] theorem State.withSchedule_errIndex (l : List Event) : (s.withSchedule l).errIndex = s.errIndex := rfl
@[simp] theorem State.withSchedule_errOffset (l : List Event) : (s.withSchedule l).errOffset = s.errOffset := rfl
@[simp] theorem State.withSchedule_cksumCalc (l : List Event) : (s.withSchedule l).cksumCalc = s.cksumCalc := rfl
@[simp] theorem State.withSchedule_cksumStored (l : List Event) : (s.withSchedule l).cksumStored = s.cksumStored := rfl
@[simp] theorem State.withSchedule_img (l : List Event) : (s.withSchedule l).img = s.img := rfl
@[simp] theorem State.withSchedule_art (l : List Event) : (s.withSchedule l).art = s.art := rfl
@[simp] theorem State.withSchedule_st (l : List Event) : (s.withSchedule l).st = s.st := rfl
@[simp] theorem State.withSchedule_k (l : List Event) : (s.withSchedule l).k = s.k := rfl
@[simp] theorem State.withSchedule_nfrm (l : List Event) : (s.withSchedule l).nfrm = s.nfrm := rfl
@[simp] theorem State.withSchedule_j (l : List Event) : (s.withSchedule l).j = s.j := rfl
@[simp] theorem State.withSchedule_nblk16 (l : List Event) : (s.withSchedule l).nblk16 = s.nblk16 := rfl
@[simp] theorem State.withSchedule_nblk (l : List Event) : (s.withSchedule l).nblk = s.nblk := rfl
@[simp] theorem State.withSchedule_txpos (l : List Event) : (s.withSchedule l).txpos = s.txpos := rfl
@[simp] theorem State.withSchedule_gen (l : List Event) : (s.withSchedule l).gen = s.gen := rfl
@[simp] theorem State.withSchedule_cv (l : List Event) : (s.withSchedule l).cv = s.cv := rfl
@[simp] theorem State.withSchedule_rxq (l : List Event) : (s.withSchedule l).rxq = s.rxq := rfl
@[simp] theorem State.withSchedule_portOpen (l : List Event) : (s.withSchedule l).portOpen = s.portOpen := rfl
@[simp] theorem State.withSchedule_running (l : List Event) : (s.withSchedule l).running = s.running := rfl
@[simp] theorem State.withSchedule_linkOk (l : List Event) : (s.withSchedule l).linkOk = s.linkOk := rfl
@[simp] theorem State.withSchedule_schedule (l : List Event) : (s.withSchedule l).schedule = l := rfl
@[simp] theorem State.withSchedule_tx (l : List Event) : (s.withSchedule l).tx = s.tx := rfl
@[simp] theorem State.withSchedule_busRead (l : List Event) : (s.withSchedule l).busRead = s.busRead := rfl
@[simp] theorem State.withSchedule_draws (l : List Event) : (s.withSchedule l).draws = s.draws := rfl

/-! ### closePort -/

@[simp] theorem State.closePort_cfg : s.closePort.cfg = s.cfg := rfl
@[simp] theorem State.closePort_doneIe : s.closePort.doneIe = s.doneIe := rfl
@[simp] theorem State.closePort_errIe : s.closePort.errIe = s.errIe := rfl
@[simp] theorem State.closePort_progIe : s.closePort.progIe = s.progIe := rfl
@[simp] theorem State.closePort_done : s.closePort.done = s.done := rfl
@[simp] theorem State.closePort_err : s.closePort.err = s.err := rfl
@[simp] theorem State.closePort_prog : s.closePort.prog = s.prog := rfl
@[simp] theorem State.closePort_matched : s.closePort.matched = s.matched := rfl
@[simp] theorem State.closePort_werr : s.closePort.werr = s.werr := rfl
@[simp] theorem State.closePort_errCode : s.closePort.errCode = s.errCode := rfl
@[simp] theorem State.closePort_imgLen : s.closePort.imgLen = s.imgLen := rfl
@[simp] theorem State.closePort_artLen : s.closePort.artLen = s.artLen := rfl
@[simp] theorem State.closePort_artLenBefore : s.closePort.artLenBefore = s.artLenBefore := rfl
@[simp] theorem State.closePort_base : s.closePort.base = s.base := rfl
@[simp] theorem State.closePort_maxRetry : s.closePort.maxRetry = s.maxRetry := rfl
@[simp] theorem State.closePort_blkIdx : s.closePort.blkIdx = s.blkIdx := rfl
@[simp] theorem State.closePort_progress : s.closePort.progress = s.progress := rfl
@[simp] theorem State.closePort_lastAck : s.closePort.lastAck = s.lastAck := rfl
@[simp] theorem State.closePort_attempt : s.closePort.attempt = s.attempt := rfl
@[simp] theorem State.closePort_errIndex : s.closePort.errIndex = s.errIndex := rfl
@[simp] theorem State.closePort_errOffset : s.closePort.errOffset = s.errOffset := rfl
@[simp] theorem State.closePort_cksumCalc : s.closePort.cksumCalc = s.cksumCalc := rfl
@[simp] theorem State.closePort_cksumStored : s.closePort.cksumStored = s.cksumStored := rfl
@[simp] theorem State.closePort_img : s.closePort.img = s.img := rfl
@[simp] theorem State.closePort_art : s.closePort.art = s.art := rfl
@[simp] theorem State.closePort_st : s.closePort.st = s.st := rfl
@[simp] theorem State.closePort_k : s.closePort.k = s.k := rfl
@[simp] theorem State.closePort_nfrm : s.closePort.nfrm = s.nfrm := rfl
@[simp] theorem State.closePort_j : s.closePort.j = s.j := rfl
@[simp] theorem State.closePort_nblk16 : s.closePort.nblk16 = s.nblk16 := rfl
@[simp] theorem State.closePort_nblk : s.closePort.nblk = s.nblk := rfl
@[simp] theorem State.closePort_txpos : s.closePort.txpos = s.txpos := rfl
@[simp] theorem State.closePort_gen : s.closePort.gen = s.gen := rfl
@[simp] theorem State.closePort_cv : s.closePort.cv = s.cv := rfl
@[simp] theorem State.closePort_rxq : s.closePort.rxq = if s.portOpen then [] else s.rxq := rfl
@[simp] theorem State.closePort_portOpen : s.closePort.portOpen = false := rfl
@[simp] theorem State.closePort_running : s.closePort.running = s.running := rfl
@[simp] theorem State.closePort_linkOk : s.closePort.linkOk = s.linkOk := rfl
@[simp] theorem State.closePort_schedule : s.closePort.schedule = s.schedule := rfl
@[simp] theorem State.closePort_tx : s.closePort.tx = s.tx := rfl
@[simp] theorem State.closePort_busRead : s.closePort.busRead = s.busRead := rfl
@[simp] theorem State.closePort_draws : s.closePort.draws = s.draws := rfl

/-! ### openPort -/

@[simp] theorem State.openPort_cfg : (s.openPort).cfg = s.cfg := rfl
@[simp] theorem State.openPort_doneIe : (s.openPort).doneIe = s.doneIe := rfl
@[simp] theorem State.openPort_errIe : (s.openPort).errIe = s.errIe := rfl
@[simp] theorem State.openPort_progIe : (s.openPort).progIe = s.progIe := rfl
@[simp] theorem State.openPort_done : (s.openPort).done = s.done := rfl
@[simp] theorem State.openPort_err : (s.openPort).err = s.err := rfl
@[simp] theorem State.openPort_prog : (s.openPort).prog = s.prog := rfl
@[simp] theorem State.openPort_matched : (s.openPort).matched = s.matched := rfl
@[simp] theorem State.openPort_werr : (s.openPort).werr = s.werr := rfl
@[simp] theorem State.openPort_errCode : (s.openPort).errCode = s.errCode := rfl
@[simp] theorem State.openPort_imgLen : (s.openPort).imgLen = s.imgLen := rfl
@[simp] theorem State.openPort_artLen : (s.openPort).artLen = s.artLen := rfl
@[simp] theorem State.openPort_artLenBefore : (s.openPort).artLenBefore = s.artLenBefore := rfl
@[simp] theorem State.openPort_base : (s.openPort).base = s.base := rfl
@[simp] theorem State.openPort_maxRetry : (s.openPort).maxRetry = s.maxRetry := rfl
@[simp] theorem State.openPort_blkIdx : (s.openPort).blkIdx = s.blkIdx := rfl
@[simp] theorem State.openPort_progress : (s.openPort).progress = s.progress := rfl
@[simp] theorem State.openPort_lastAck : (s.openPort).lastAck = s.lastAck := rfl
@[simp] theorem State.openPort_attempt : (s.openPort).attempt = s.attempt := rfl
@[simp] theorem State.openPort_errIndex : (s.openPort).errIndex = s.errIndex := rfl
@[simp] theorem State.openPort_errOffset : (s.openPort).errOffset = s.errOffset := rfl
@[simp] theorem State.openPort_cksumCalc : (s.openPort).cksumCalc = s.cksumCalc := rfl
@[simp] theorem State.openPort_cksumStored : (s.openPort).cksumStored = s.cksumStored := rfl
@[simp] theorem State.openPort_img : (s.openPort).img = s.img := rfl
@[simp] theorem State.openPort_art : (s.openPort).art = s.art := rfl
@[simp] theorem State.openPort_st : (s.openPort).st = s.st := rfl
@[simp] theorem State.openPort_k : (s.openPort).k = s.k := rfl
@[simp] theorem State.openPort_nfrm : (s.openPort).nfrm = s.nfrm := rfl
@[simp] theorem State.openPort_j : (s.openPort).j = s.j := rfl
@[simp] theorem State.openPort_nblk16 : (s.openPort).nblk16 = s.nblk16 := rfl
@[simp] theorem State.openPort_nblk : (s.openPort).nblk = s.nblk := rfl
@[simp] theorem State.openPort_txpos : (s.openPort).txpos = s.txpos := rfl
@[simp] theorem State.openPort_gen : (s.openPort).gen = s.gen := rfl
@[simp] theorem State.openPort_cv : (s.openPort).cv = s.cv := rfl
@[simp] theorem State.openPort_rxq : (s.openPort).rxq = [] := rfl
@[simp] theorem State.openPort_portOpen : (s.openPort).portOpen = true := rfl
@[simp] theorem State.openPort_running : (s.openPort).running = s.running := rfl
@[simp] theorem State.openPort_linkOk : (s.openPort).linkOk = s.linkOk := rfl
@[simp] theorem State.openPort_schedule : (s.openPort).schedule = s.schedule := rfl
@[simp] theorem State.openPort_tx : (s.openPort).tx = s.tx := rfl
@[simp] theorem State.openPort_busRead : (s.openPort).busRead = s.busRead := rfl
@[simp] theorem State.openPort_draws : (s.openPort).draws = s.draws := rfl

/-! ### send -/

@[simp] theorem State.send_cfg (b : Byte) : (s.send b).cfg = s.cfg := rfl
@[simp] theorem State.send_doneIe (b : Byte) : (s.send b).doneIe = s.doneIe := rfl
@[simp] theorem State.send_errIe (b : Byte) : (s.send b).errIe = s.errIe := rfl
@[simp] theorem State.send_progIe (b : Byte) : (s.send b).progIe = s.progIe := rfl
@[simp] theorem State.send_done (b : Byte) : (s.send b).done = s.done := rfl
@[simp] theorem State.send_err (b : Byte) : (s.send b).err = s.err := rfl
@[simp] theorem State.send_prog (b : Byte) : (s.send b).prog = s.prog := rfl
@[simp] theorem State.send_matched (b : Byte) : (s.send b).matched = s.matched := rfl
@[simp] theorem State.send_werr (b : Byte) : (s.send b).werr = s.werr := rfl
@[simp] theorem State.send_errCode (b : Byte) : (s.send b).errCode = s.errCode := rfl
@[simp] theorem State.send_imgLen (b : Byte) : (s.send b).imgLen = s.imgLen := rfl
@[simp] theorem State.send_artLen (b : Byte) : (s.send b).artLen = s.artLen := rfl
@[simp] theorem State.send_artLenBefore (b : Byte) : (s.send b).artLenBefore = s.artLenBefore := rfl
@[simp] theorem State.send_base (b : Byte) : (s.send b).base = s.base := rfl
@[simp] theorem State.send_maxRetry (b : Byte) : (s.send b).maxRetry = s.maxRetry := rfl
@[simp] theorem State.send_blkIdx (b : Byte) : (s.send b).blkIdx = s.blkIdx := rfl
@[simp] theorem State.send_progress (b : Byte) : (s.send b).progress = s.progress := rfl
@[simp] theorem State.send_lastAck (b : Byte) : (s.send b).lastAck = s.lastAck := rfl
@[simp] theorem State.send_attempt (b : Byte) : (s.send b).attempt = s.attempt := rfl
@[simp] theorem State.send_errIndex (b : Byte) : (s.send b).errIndex = s.errIndex := rfl
@[simp] theorem State.send_errOffset (b : Byte) : (s.send b).errOffset = s.errOffset := rfl
@[simp] theorem State.send_cksumCalc (b : Byte) : (s.send b).cksumCalc = s.cksumCalc := rfl
@[simp] theorem State.send_cksumStored (b : Byte) : (s.send b).cksumStored = s.cksumStored := rfl
@[simp] theorem State.send_img (b : Byte) : (s.send b).img = s.img := rfl
@[simp] theorem State.send_art (b : Byte) : (s.send b).art = s.art := rfl
@[simp] theorem State.send_st (b : Byte) : (s.send b).st = s.st := rfl
@[simp] theorem State.send_k (b : Byte) : (s.send b).k = s.k := rfl
@[simp] theorem State.send_nfrm (b : Byte) : (s.send b).nfrm = s.nfrm := rfl
@[simp] theorem State.send_j (b : Byte) : (s.send b).j = s.j := rfl
@[simp] theorem State.send_nblk16 (b : Byte) : (s.send b).nblk16 = s.nblk16 := rfl
@[simp] theorem State.send_nblk (b : Byte) : (s.send b).nblk = s.nblk := rfl
@[simp] theorem State.send_txpos (b : Byte) : (s.send b).txpos = s.txpos := rfl
@[simp] theorem State.send_gen (b : Byte) : (s.send b).gen = s.gen := rfl
@[simp] theorem State.send_cv (b : Byte) : (s.send b).cv = s.cv := rfl
@[simp] theorem State.send_rxq (b : Byte) : (s.send b).rxq = s.rxq := rfl
@[simp] theorem State.send_portOpen (b : Byte) : (s.send b).portOpen = s.portOpen := rfl
@[simp] theorem State.send_running (b : Byte) : (s.send b).running = s.running := rfl
@[simp] theorem State.send_linkOk (b : Byte) : (s.send b).linkOk = s.linkOk := rfl
@[simp] theorem State.send_schedule (b : Byte) : (s.send b).schedule = s.schedule := rfl
@[simp] theorem State.send_tx (b : Byte) : (s.send b).tx = s.tx ++ [b] := rfl
@[simp] theorem State.send_busRead (b : Byte) : (s.send b).busRead = s.busRead := rfl
@[simp] theorem State.send_draws (b : Byte) : (s.send b).draws = s.draws := rfl

/-! ### complete -/

@[simp] theorem State.complete_cfg : (s.complete).cfg = s.cfg := rfl
@[simp] theorem State.complete_doneIe : (s.complete).doneIe = s.doneIe := rfl
@[simp] theorem State.complete_errIe : (s.complete).errIe = s.errIe := rfl
@[simp] theorem State.complete_progIe : (s.complete).progIe = s.progIe := rfl
@[simp] theorem State.complete_done : (s.complete).done = true := rfl
@[simp] theorem State.complete_err : (s.complete).err = s.err := rfl
@[simp] theorem State.complete_prog : (s.complete).prog = s.prog := rfl
@[simp] theorem State.complete_matched : (s.complete).matched = s.matched := rfl
@[simp] theorem State.complete_werr : (s.complete).werr = s.werr := rfl
@[simp] theorem State.complete_errCode : (s.complete).errCode = s.errCode := rfl
@[simp] theorem State.complete_imgLen : (s.complete).imgLen = s.imgLen := rfl
@[simp] theorem State.complete_artLen : (s.complete).artLen = s.artLen := rfl
@[simp] theorem State.complete_artLenBefore : (s.complete).artLenBefore = s.artLenBefore := rfl
@[simp] theorem State.complete_base : (s.complete).base = s.base := rfl
@[simp] theorem State.complete_maxRetry : (s.complete).maxRetry = s.maxRetry := rfl
@[simp] theorem State.complete_blkIdx : (s.complete).blkIdx = s.blkIdx := rfl
@[simp] theorem State.complete_progress : (s.complete).progress = s.progress := rfl
@[simp] theorem State.complete_lastAck : (s.complete).lastAck = s.lastAck := rfl
@[simp] theorem State.complete_attempt : (s.complete).attempt = s.attempt := rfl
@[simp] theorem State.complete_errIndex : (s.complete).errIndex = s.errIndex := rfl
@[simp] theorem State.complete_errOffset : (s.complete).errOffset = s.errOffset := rfl
@[simp] theorem State.complete_cksumCalc : (s.complete).cksumCalc = s.cksumCalc := rfl
@[simp] theorem State.complete_cksumStored : (s.complete).cksumStored = s.cksumStored := rfl
@[simp] theorem State.complete_img : (s.complete).img = s.img := rfl
@[simp] theorem State.complete_art : (s.complete).art = s.art := rfl
@[simp] theorem State.complete_st : (s.complete).st = .done := rfl
@[simp] theorem State.complete_k : (s.complete).k = s.k := rfl
@[simp] theorem State.complete_nfrm : (s.complete).nfrm = s.nfrm := rfl
@[simp] theorem State.complete_j : (s.complete).j = s.j := rfl
@[simp] theorem State.complete_nblk16 : (s.complete).nblk16 = s.nblk16 := rfl
@[simp] theorem State.complete_nblk : (s.complete).nblk = s.nblk := rfl
@[simp] theorem State.complete_txpos : (s.complete).txpos = s.txpos := rfl
@[simp] theorem State.complete_gen : (s.complete).gen = s.gen := rfl
@[simp] theorem State.complete_cv : (s.complete).cv = s.cv := rfl
@[simp] theorem State.complete_rxq : (s.complete).rxq = if s.portOpen then [] else s.rxq := rfl
@[simp] theorem State.complete_portOpen : (s.complete).portOpen = false := rfl
@[simp] theorem State.complete_running : (s.complete).running = none := rfl
@[simp] theorem State.complete_linkOk : (s.complete).linkOk = s.linkOk := rfl
@[simp] theorem State.complete_schedule : (s.complete).schedule = s.schedule := rfl
@[simp] theorem State.complete_tx : (s.complete).tx = s.tx := rfl
@[simp] theorem State.complete_busRead : (s.complete).busRead = s.busRead := rfl
@[simp] theorem State.complete_draws : (s.complete).draws = s.draws := rfl

/-! ### raiseError -/

@[simp] theorem State.raiseError_cfg (c : ErrorCode) : (s.raiseError c).cfg = s.cfg := rfl
@[simp] theorem State.raiseError_doneIe (c : ErrorCode) : (s.raiseError c).doneIe = s.doneIe := rfl
@[simp] theorem State.raiseError_errIe (c : ErrorCode) : (s.raiseError c).errIe = s.errIe := rfl
@[simp] theorem State.raiseError_progIe (c : ErrorCode) : (s.raiseError c).progIe = s.progIe := rfl
@[simp] theorem State.raiseError_done (c : ErrorCode) : (s.raiseError c).done = s.done := rfl
@[simp] theorem State.raiseError_err (c : ErrorCode) : (s.raiseError c).err = true := rfl
@[simp] theorem State.raiseError_prog (c : ErrorCode) : (s.raiseError c).prog = s.prog := rfl
@[simp] theorem State.raiseError_matched (c : ErrorCode) : (s.raiseError c).matched = s.matched := rfl
@[simp] theorem State.raiseError_werr (c : ErrorCode) : (s.raiseError c).werr = s.werr := rfl
@[simp] theorem State.raiseError_errCode (c : ErrorCode) : (s.raiseError c).errCode = c := rfl
@[simp] theorem State.raiseError_imgLen (c : ErrorCode) : (s.raiseError c).imgLen = s.imgLen := rfl
@[simp] theorem State.raiseError_artLen (c : ErrorCode) : (s.raiseError c).artLen = s.artLen := rfl
@[simp] theorem State.raiseError_artLenBefore (c : ErrorCode) : (s.raiseError c).artLenBefore = s.artLenBefore := rfl
@[simp] theorem State.raiseError_base (c : ErrorCode) : (s.raiseError c).base = s.base := rfl
@[simp] theorem State.raiseError_maxRetry (c : ErrorCode) : (s.raiseError c).maxRetry = s.maxRetry := rfl
@[simp] theorem State.raiseError_blkIdx (c : ErrorCode) : (s.raiseError c).blkIdx = s.blkIdx := rfl
@[simp] theorem State.raiseError_progress (c : ErrorCode) : (s.raiseError c).progress = s.progress := rfl
@[simp] theorem State.raiseError_lastAck (c : ErrorCode) : (s.raiseError c).lastAck = s.lastAck := rfl
@[simp] theorem State.raiseError_attempt (c : ErrorCode) : (s.raiseError c).attempt = s.attempt := rfl
@[simp] theorem State.raiseError_errIndex (c : ErrorCode) : (s.raiseError c).errIndex = if s.st.flashing then s.blkIdx else 0#16 := rfl
@[simp] theorem State.raiseError_errOffset (c : ErrorCode) : (s.raiseError c).errOffset = if s.st.flashing then BitVec.ofNat 16 (80 * s.blkIdx.toNat) else 0#16 := rfl
@[simp] theorem State.raiseError_cksumCalc (c : ErrorCode) : (s.raiseError c).cksumCalc = s.cksumCalc := rfl
@[simp] theorem State.raiseError_cksumStored (c : ErrorCode) : (s.raiseError c).cksumStored = s.cksumStored := rfl
@[simp] theorem State.raiseError_img (c : ErrorCode) : (s.raiseError c).img = s.img := rfl
@[simp] theorem State.raiseError_art (c : ErrorCode) : (s.raiseError c).art = s.art := rfl
@[simp] theorem State.raiseError_st (c : ErrorCode) : (s.raiseError c).st = .aborted := rfl
@[simp] theorem State.raiseError_k (c : ErrorCode) : (s.raiseError c).k = s.k := rfl
@[simp] theorem State.raiseError_nfrm (c : ErrorCode) : (s.raiseError c).nfrm = s.nfrm := rfl
@[simp] theorem State.raiseError_j (c : ErrorCode) : (s.raiseError c).j = s.j := rfl
@[simp] theorem State.raiseError_nblk16 (c : ErrorCode) : (s.raiseError c).nblk16 = s.nblk16 := rfl
@[simp] theorem State.raiseError_nblk (c : ErrorCode) : (s.raiseError c).nblk = s.nblk := rfl
@[simp] theorem State.raiseError_txpos (c : ErrorCode) : (s.raiseError c).txpos = s.txpos := rfl
@[simp] theorem State.raiseError_gen (c : ErrorCode) : (s.raiseError c).gen = false := rfl
@[simp] theorem State.raiseError_cv (c : ErrorCode) : (s.raiseError c).cv = s.cv := rfl
@[simp] theorem State.raiseError_rxq (c : ErrorCode) : (s.raiseError c).rxq = if s.portOpen then [] else s.rxq := rfl
@[simp] theorem State.raiseError_portOpen (c : ErrorCode) : (s.raiseError c).portOpen = false := rfl
@[simp] theorem State.raiseError_running (c : ErrorCode) : (s.raiseError c).running = none := rfl
@[simp] theorem State.raiseError_linkOk (c : ErrorCode) : (s.raiseError c).linkOk = s.linkOk := rfl
@[simp] theorem State.raiseError_schedule (c : ErrorCode) : (s.raiseError c).schedule = s.schedule := rfl
@[simp] theorem State.raiseError_tx (c : ErrorCode) : (s.raiseError c).tx = s.tx := rfl
@[simp] theorem State.raiseError_busRead (c : ErrorCode) : (s.raiseError c).busRead = s.busRead := rfl
@[simp] theorem State.raiseError_draws (c : ErrorCode) : (s.raiseError c).draws = s.draws := rfl

/-! ### accept -/

@[simp] theorem State.accept_cfg : (s.accept).cfg = s.cfg := rfl
@[simp] theorem State.accept_doneIe : (s.accept).doneIe = s.doneIe := rfl
@[simp] theorem State.accept_errIe : (s.accept).errIe = s.errIe := rfl
@[simp] theorem State.accept_progIe : (s.accept).progIe = s.progIe := rfl
@[simp] theorem State.accept_done : (s.accept).done = false := rfl
@[simp] theorem State.accept_err : (s.accept).err = false := rfl
@[simp] theorem State.accept_prog : (s.accept).prog = false := rfl
@[simp] theorem State.accept_matched : (s.accept).matched = false := rfl
@[simp] theorem State.accept_werr : (s.accept).werr = s.werr := rfl
@[simp] theorem State.accept_errCode : (s.accept).errCode = .noError := rfl
@[simp] theorem State.accept_imgLen : (s.accept).imgLen = s.imgLen := rfl
@[simp] theorem State.accept_artLen : (s.accept).artLen = s.artLen := rfl
@[simp] theorem State.accept_artLenBefore : (s.accept).artLenBefore = s.artLenBefore := rfl
@[simp] theorem State.accept_base : (s.accept).base = s.base := rfl
@[simp] theorem State.accept_maxRetry : (s.accept).maxRetry = s.maxRetry := rfl
@[simp] theorem State.accept_blkIdx : (s.accept).blkIdx = s.blkIdx := rfl
@[simp] theorem State.accept_progress : (s.accept).progress = s.progress := rfl
@[simp] theorem State.accept_lastAck : (s.accept).lastAck = s.lastAck := rfl
@[simp] theorem State.accept_attempt : (s.accept).attempt = s.attempt := rfl
@[simp] theorem State.accept_errIndex : (s.accept).errIndex = s.errIndex := rfl
@[simp] theorem State.accept_errOffset : (s.accept).errOffset = s.errOffset := rfl
@[simp] theorem State.accept_cksumCalc : (s.accept).cksumCalc = s.cksumCalc := rfl
@[simp] theorem State.accept_cksumStored : (s.accept).cksumStored = s.cksumStored := rfl
@[simp] theorem State.accept_img : (s.accept).img = s.img := rfl
@[simp] theorem State.accept_art : (s.accept).art = s.art := rfl
@[simp] theorem State.accept_st : (s.accept).st = s.st := rfl
@[simp] theorem State.accept_k : (s.accept).k = s.k := rfl
@[simp] theorem State.accept_nfrm : (s.accept).nfrm = s.nfrm := rfl
@[simp] theorem State.accept_j : (s.accept).j = s.j := rfl
@[simp] theorem State.accept_nblk16 : (s.accept).nblk16 = s.nblk16 := rfl
@[simp] theorem State.accept_nblk : (s.accept).nblk = s.nblk := rfl
@[simp] theorem State.accept_txpos : (s.accept).txpos = s.txpos := rfl
@[simp] theorem State.accept_gen : (s.accept).gen = s.gen := rfl
@[simp] theorem State.accept_cv : (s.accept).cv = s.cv := rfl
@[simp] theorem State.accept_rxq : (s.accept).rxq = s.rxq := rfl
@[simp] theorem State.accept_portOpen : (s.accept).portOpen = s.portOpen := rfl
@[simp] theorem State.accept_running : (s.accept).running = s.running := rfl
@[simp] theorem State.accept_linkOk : (s.accept).linkOk = s.linkOk := rfl
@[simp] theorem State.accept_schedule : (s.accept).schedule = s.schedule := rfl
@[simp] theorem State.accept_tx : (s.accept).tx = s.tx := rfl
@[simp] theorem State.accept_busRead : (s.accept).busRead = s.busRead := rfl
@[simp] theorem State.accept_draws : (s.accept).draws = s.draws := rfl

/-! ### dropWrite -/

@[simp] theorem State.dropWrite_cfg : (s.dropWrite).cfg = s.cfg := rfl
@[simp] theorem State.dropWrite_doneIe : (s.dropWrite).doneIe = s.doneIe := rfl
@[simp] theorem State.dropWrite_errIe : (s.dropWrite).errIe = s.errIe := rfl
@[simp] theorem State.dropWrite_progIe : (s.dropWrite).progIe = s.progIe := rfl
@[simp] theorem State.dropWrite_done : (s.dropWrite).done = s.done := rfl
@[simp] theorem State.dropWrite_err : (s.dropWrite).err = s.err := rfl
@[simp] theorem State.dropWrite_prog : (s.dropWrite).prog = s.prog := rfl
@[simp] theorem State.dropWrite_matched : (s.dropWrite).matched = s.matched := rfl
@[simp] theorem State.dropWrite_werr : (s.dropWrite).werr = true := rfl
@[simp] theorem State.dropWrite_errCode : (s.dropWrite).errCode = s.errCode := rfl
@[simp] theorem State.dropWrite_imgLen : (s.dropWrite).imgLen = s.imgLen := rfl
@[simp] theorem State.dropWrite_artLen : (s.dropWrite).artLen = s.artLen := rfl
@[simp] theorem State.dropWrite_artLenBefore : (s.dropWrite).artLenBefore = s.artLenBefore := rfl
@[simp] theorem State.dropWrite_base : (s.dropWrite).base = s.base := rfl
@[simp] theorem State.dropWrite_maxRetry : (s.dropWrite).maxRetry = s.maxRetry := rfl
@[simp] theorem State.dropWrite_blkIdx : (s.dropWrite).blkIdx = s.blkIdx := rfl
@[simp] theorem State.dropWrite_progress : (s.dropWrite).progress = s.progress := rfl
@[simp] theorem State.dropWrite_lastAck : (s.dropWrite).lastAck = s.lastAck := rfl
@[simp] theorem State.dropWrite_attempt : (s.dropWrite).attempt = s.attempt := rfl
@[simp] theorem State.dropWrite_errIndex : (s.dropWrite).errIndex = s.errIndex := rfl
@[simp] theorem State.dropWrite_errOffset : (s.dropWrite).errOffset = s.errOffset := rfl
@[simp] theorem State.dropWrite_cksumCalc : (s.dropWrite).cksumCalc = s.cksumCalc := rfl
@[simp] theorem State.dropWrite_cksumStored : (s.dropWrite).cksumStored = s.cksumStored := rfl
@[simp] theorem State.dropWrite_img : (s.dropWrite).img = s.img := rfl
@[simp] theorem State.dropWrite_art : (s.dropWrite).art = s.art := rfl
@[simp] theorem State.dropWrite_st : (s.dropWrite).st = s.st := rfl
@[simp] theorem State.dropWrite_k : (s.dropWrite).k = s.k := rfl
@[simp] theorem State.dropWrite_nfrm : (s.dropWrite).nfrm = s.nfrm := rfl
@[simp] theorem State.dropWrite_j : (s.dropWrite).j = s.j := rfl
@[simp] theorem State.dropWrite_nblk16 : (s.dropWrite).nblk16 = s.nblk16 := rfl
@[simp] theorem State.dropWrite_nblk : (s.dropWrite).nblk = s.nblk := rfl
@[simp] theorem State.dropWrite_txpos : (s.dropWrite).txpos = s.txpos := rfl
@[simp] theorem State.dropWrite_gen : (s.dropWrite).gen = s.gen := rfl
@[simp] theorem State.dropWrite_cv : (s.dropWrite).cv = s.cv := rfl
@[simp] theorem State.dropWrite_rxq : (s.dropWrite).rxq = s.rxq := rfl
@[simp] theorem State.dropWrite_portOpen : (s.dropWrite).portOpen = s.portOpen := rfl
@[simp] theorem State.dropWrite_running : (s.dropWrite).running = s.running := rfl
@[simp] theorem State.dropWrite_linkOk : (s.dropWrite).linkOk = s.linkOk := rfl
@[simp] theorem State.dropWrite_schedule : (s.dropWrite).schedule = s.schedule := rfl
@[simp] theorem State.dropWrite_tx : (s.dropWrite).tx = s.tx := rfl
@[simp] theorem State.dropWrite_busRead : (s.dropWrite).busRead = s.busRead := rfl
@[simp] theorem State.dropWrite_draws : (s.dropWrite).draws = s.draws := rfl

/-! ### resetEvent -/

@[simp] theorem State.resetEvent_cfg : (s.resetEvent).cfg = s.cfg := rfl
@[simp] theorem State.resetEvent_doneIe : (s.resetEvent).doneIe = false := rfl
@[simp] theorem State.resetEvent_errIe : (s.resetEvent).errIe = false := rfl
@[simp] theorem State.resetEvent_progIe : (s.resetEvent).progIe = false := rfl
@[simp] theorem State.resetEvent_done : (s.resetEvent).done = false := rfl
@[simp] theorem State.resetEvent_err : (s.resetEvent).err = false := rfl
@[simp] theorem State.resetEvent_prog : (s.resetEvent).prog = false := rfl
@[simp] theorem State.resetEvent_matched : (s.resetEvent).matched = false := rfl
@[simp] theorem State.resetEvent_werr : (s.resetEvent).werr = false := rfl
@[simp] theorem State.resetEvent_errCode : (s.resetEvent).errCode = .noError := rfl
@[simp] theorem State.resetEvent_imgLen : (s.resetEvent).imgLen = 0#16 := rfl
@[simp] theorem State.resetEvent_artLen : (s.resetEvent).artLen = 0#16 := rfl
@[simp] theorem State.resetEvent_artLenBefore : (s.resetEvent).artLenBefore = 0#16 := rfl
@[simp] theorem State.resetEvent_base : (s.resetEvent).base = 0x1000#16 := rfl
@[simp] theorem State.resetEvent_maxRetry : (s.resetEvent).maxRetry = s.cfg.retryDefault := rfl
@[simp] theorem State.resetEvent_blkIdx : (s.resetEvent).blkIdx = 0#16 := rfl
@[simp] theorem State.resetEvent_progress : (s.resetEvent).progress = 0#16 := rfl
@[simp] theorem State.resetEvent_lastAck : (s.resetEvent).lastAck = .none := rfl
@[simp] theorem State.resetEvent_attempt : (s.resetEvent).attempt = 0#8 := rfl
@[simp] theorem State.resetEvent_errIndex : (s.resetEvent).errIndex = 0#16 := rfl
@[simp] theorem State.resetEvent_errOffset : (s.resetEvent).errOffset = 0#16 := rfl
@[simp] theorem State.resetEvent_cksumCalc : (s.resetEvent).cksumCalc = 0#16 := rfl
@[simp] theorem State.resetEvent_cksumStored : (s.resetEvent).cksumStored = 0#16 := rfl
@[simp] theorem State.resetEvent_img : (s.resetEvent).img = Memory.drawn s.draws := rfl
@[simp] theorem State.resetEvent_art : (s.resetEvent).art = Memory.drawn s.draws := rfl
@[simp] theorem State.resetEvent_st : (s.resetEvent).st = .idle := rfl
@[simp] theorem State.resetEvent_k : (s.resetEvent).k = 0 := rfl
@[simp] theorem State.resetEvent_nfrm : (s.resetEvent).nfrm = 0 := rfl
@[simp] theorem State.resetEvent_j : (s.resetEvent).j = 0 := rfl
@[simp] theorem State.resetEvent_nblk16 : (s.resetEvent).nblk16 = 0 := rfl
@[simp] theorem State.resetEvent_nblk : (s.resetEvent).nblk = 0 := rfl
@[simp] theorem State.resetEvent_txpos : (s.resetEvent).txpos = 0 := rfl
@[simp] theorem State.resetEvent_gen : (s.resetEvent).gen = false := rfl
@[simp] theorem State.resetEvent_cv : (s.resetEvent).cv = Config.anyBlock s.draws := rfl
@[simp] theorem State.resetEvent_rxq : (s.resetEvent).rxq = [] := rfl
@[simp] theorem State.resetEvent_portOpen : (s.resetEvent).portOpen = false := rfl
@[simp] theorem State.resetEvent_running : (s.resetEvent).running = none := rfl
@[simp] theorem State.resetEvent_linkOk : (s.resetEvent).linkOk = s.linkOk := rfl
@[simp] theorem State.resetEvent_schedule : (s.resetEvent).schedule = s.schedule := rfl
@[simp] theorem State.resetEvent_tx : (s.resetEvent).tx = s.tx := rfl
@[simp] theorem State.resetEvent_busRead : (s.resetEvent).busRead = s.busRead := rfl
@[simp] theorem State.resetEvent_draws : (s.resetEvent).draws = s.draws + 1 := rfl

/-! ### The classes of engine states -/

@[simp] theorem State.busy_accept : s.accept.busy = s.busy := rfl
@[simp] theorem State.busy_complete : s.complete.busy = false := rfl
@[simp] theorem State.busy_raiseError (c : ErrorCode) : (s.raiseError c).busy = false := rfl

/-- A flashing state is a busy state. -/
theorem EngState.busy_of_flashing {e : EngState} (h : e.flashing = true) : e.busy = true := by
  cases e <;> simp_all [EngState.flashing, EngState.busy]

/-- The states that are not busy are IDLE, DONE and ABORTED (40 R95). -/
theorem EngState.not_busy_iff {e : EngState} : e.busy = false ↔ e = .idle ∨ e = .done ∨ e = .aborted := by
  cases e <;> simp [EngState.busy]

/-- A command other than ABORT issued while busy is dropped (40 R92). -/
theorem State.issue_of_busy {s : State} (h : s.busy = true) (start : State → State) : s.issue start = s.dropWrite := by
  simp [State.issue, h]

/-- A command other than ABORT issued while not busy is accepted and starts (40 R91). -/
theorem State.issue_of_idle {s : State} (h : s.busy = false) (start : State → State) : s.issue start = start s.accept := by
  simp [State.issue, h]

end Sys2Proof.Machine
end

