-- ==== Sys2Proof/Laws/Step.lean ====
section
/-! SUPPORT. What a step, a host access, an issued command and an engine turn can do, said once. -/

namespace Sys2Proof.Machine

/-! ### The step -/

/-- A step with an event listed runs that event on the state with the event taken off. -/
theorem step_of_event {s : State} {e : Event} {rest : List Event} (h : s.schedule = e :: rest) :
    step s = runEvent e (s.withSchedule rest) := by
  simp [step, takeStep, h]

/-- A step with nothing listed is the engine's turn. -/
theorem step_of_empty {s : State} (h : s.schedule = []) : step s = .next (engineTurn s) := by
  simp [step, takeStep, h]

/-- What a step that answers a next state did: an engine turn on its own, or the first event. -/
theorem step_cases {s t : State} (h : step s = .next t) :
    (s.schedule = [] ∧ t = engineTurn s) ∨
    ∃ e rest, s.schedule = e :: rest ∧ runEvent e (s.withSchedule rest) = .next t := by
  cases hs : s.schedule with
  | nil         => rw [step_of_empty hs] at h; cases h; exact .inl ⟨rfl, rfl⟩
  | cons e rest => exact .inr ⟨e, rest, rfl, by rw [← step_of_event hs]; exact h⟩

/-! ### The engine's turn -/

/-- The engine's turn is one of the steps of 41 R107, 42 R133, 44 R173 to R179, or nothing. -/
theorem engineTurn_cases (s : State) :
    (s.st = .packing ∧ engineTurn s = packStep s) ∨ (s.st = .encrypting ∧ engineTurn s = encryptStep s) ∨
    (s.st = .connected ∧ engineTurn s = connectedStep s) ∨ (s.st = .sending ∧ engineTurn s = sendingStep s) ∨
    (∃ q, s.st = .awaitAck ∧ s.rxq = Config.ackByte :: q ∧ engineTurn s = ackedStep Config.ackByte q s) ∨
    (∃ b q, s.st = .awaitAck ∧ s.rxq = b :: q ∧ b ≠ Config.ackByte ∧ engineTurn s = rejectedStep b q s) ∨
    (s.st = .awaitAck ∧ s.rxq = [] ∧ engineTurn s = s) ∨ (s.st = .nacked ∧ engineTurn s = nackedStep s) ∨
    (s.busy = false ∧ engineTurn s = s) := by
  cases h : s.st with
  | awaitAck =>
    cases hq : s.rxq with
    | nil => simp [engineTurn, engineStep, awaitAckStep, h, hq]
    | cons b q =>
      by_cases hb : b = Config.ackByte
      · subst hb; simp [engineTurn, engineStep, awaitAckStep, h, hq]
      · simp only [Config.ackByte] at hb
        simp [engineTurn, engineStep, awaitAckStep, h, hq, hb]
  | _ => simp [engineTurn, engineStep, h, State.busy, EngState.busy]

/-- While not busy the engine's turn changes nothing (60 R217). -/
theorem engineTurn_of_not_busy {s : State} (h : s.busy = false) : engineTurn s = s := by
  cases hs : s.st <;> simp [State.busy, EngState.busy, hs] at h <;> simp [engineTurn, engineStep, hs]

/-- What the PACK step does (41 R107): a frame; after the last, a PACK completes and a GENERATE goes on to encrypt. The assertion of
42 R135 never fails: a multiple of 80 is a multiple of 16. -/
theorem packStep_cases (s : State) :
    (s.k + 1 ≠ s.nfrm ∧
      packStep s = { s with art := s.art.writeBytes (Config.totalSize * s.k) (s.frame s.k), k := s.k + 1 }) ∨
    (s.k + 1 = s.nfrm ∧ s.gen = false ∧
      packStep s = State.complete { s with
        art := s.art.writeBytes (Config.totalSize * s.k) (s.frame s.k), k := s.k + 1
        artLen := BitVec.ofNat 16 (Config.totalSize * s.nfrm) }) ∨
    (s.k + 1 = s.nfrm ∧ s.gen = true ∧
      packStep s = { s with
        art := s.art.writeBytes (Config.totalSize * s.k) (s.frame s.k), k := s.k + 1
        artLen := BitVec.ofNat 16 (Config.totalSize * s.nfrm), artLenBefore := s.artLen, gen := false, cv := Config.iv, j := 0
        nblk16 := (BitVec.ofNat 16 (Config.totalSize * s.nfrm)).toNat / Config.blockLen, st := .encrypting }) := by
  have aligned : (BitVec.ofNat 16 (Config.totalSize * s.nfrm)).toNat % Config.blockLen = 0 := by
    simp only [Config.totalSize, Config.blockLen, BitVec.toNat_ofNat]
    omega
  by_cases h : s.k + 1 = s.nfrm
  · cases hg : s.gen with
    | false => exact .inr (.inl ⟨h, rfl, by simp [packStep, h, hg]⟩)
    | true  =>
      refine .inr (.inr ⟨h, rfl, ?_⟩)
      unfold packStep
      rw [if_pos h, if_pos hg]
      unfold startEncryptPhase
      rw [if_neg (not_not.2 aligned)]
      rfl
  · refine .inl ⟨h, ?_⟩
    unfold packStep
    rw [if_neg h]

/-- The engine's turn does not look at the schedule. -/
theorem engineTurn_schedule (s : State) (l : List Event) :
    engineTurn (s.withSchedule l) = (engineTurn s).withSchedule l := by
  have pack : packStep (s.withSchedule l) = (packStep s).withSchedule l := by
    by_cases h1 : s.k + 1 = s.nfrm <;> by_cases h2 : s.gen = true <;>
      by_cases h3 : (BitVec.ofNat 16 (Config.totalSize * s.nfrm)).toNat % Config.blockLen = 0 <;>
      simp only [packStep, startEncryptPhase, State.withSchedule_k, State.withSchedule_nfrm, State.withSchedule_gen,
        h1, h2, h3, if_true, if_false, ne_eq, not_true_eq_false, not_false_eq_true] <;> rfl
  have encr : encryptStep (s.withSchedule l) = (encryptStep s).withSchedule l := by
    by_cases h1 : s.j + 1 = s.nblk16 <;>
      simp only [encryptStep, encryptStepWith, State.withSchedule_j, State.withSchedule_nblk16, h1, if_true, if_false] <;> rfl
  have conn : connectedStep (s.withSchedule l) = (connectedStep s).withSchedule l := by
    by_cases h1 : s.nblk = 0 <;> simp only [connectedStep, State.withSchedule_nblk, h1, if_true, if_false] <;> rfl
  have send : sendingStep (s.withSchedule l) = (sendingStep s).withSchedule l := by
    by_cases h1 : s.txpos + 1 = Config.totalSize <;>
      simp only [sendingStep, State.withSchedule_txpos, h1, if_true, if_false] <;> rfl
  have acked (b q) : ackedStep b q (s.withSchedule l) = (ackedStep b q s).withSchedule l := by
    by_cases h1 : s.blkIdx.toNat + 1 = s.nblk <;>
      simp only [ackedStep, State.withSchedule_blkIdx, State.withSchedule_nblk, h1, if_true, if_false] <;> rfl
  have rejected (b q) : rejectedStep b q (s.withSchedule l) = (rejectedStep b q s).withSchedule l := rfl
  have nack : nackedStep (s.withSchedule l) = (nackedStep s).withSchedule l := by
    by_cases h1 : s.attempt.toNat < s.maxRetry.toNat <;>
      simp only [nackedStep, State.withSchedule_attempt, State.withSchedule_maxRetry, h1, if_true, if_false] <;> rfl
  cases h : s.st with
  | awaitAck =>
    cases hq : s.rxq with
    | nil      => simp [engineTurn, engineStep, awaitAckStep, h, hq]
    | cons b q =>
      by_cases hb : b = 0x56#8 <;> simp [engineTurn, engineStep, awaitAckStep, h, hq, hb, acked, rejected]
  | _ => simp [engineTurn, engineStep, *]

/-- The engine's turn, next in the schedule. -/
theorem step_of_engine {s : State} {rest : List Event} (h : s.schedule = .engine :: rest) :
    step s = .next ((engineTurn s).withSchedule rest) := by
  rw [step_of_event h, ← engineTurn_schedule]
  rfl

/-! ### Commands -/

/-- Every command answers a next state: no command stops the machine. -/
theorem exec_next (i : Instr) (s : State) : ∃ t, exec i s = .next t := by
  cases i <;> exact ⟨_, rfl⟩

/-- Every command word answers a next state. -/
theorem issueWord_next (v : Word) (s : State) : ∃ t, issueWord v s = .next t := by
  unfold issueWord
  split
  · exact exec_next _ _
  · exact ⟨_, rfl⟩

/-- A command word issued while busy cancels (ABORT) or is dropped (40 R92). -/
theorem issueWord_of_busy {s : State} (h : s.busy = true) (v : Word) :
    (decodeWord v = .ok .abort ∧ issueWord v s = .next (cancel s)) ∨ issueWord v s = .next s.dropWrite := by
  unfold issueWord
  cases hd : decodeWord v with
  | error e => exact .inr (by simp [issueReserved, State.issue_of_busy h])
  | ok i =>
    cases i <;>
      simp [exec, execNop, execTestpat, execPack, execEncrypt, execGenerate, execCksum, execFlash, execAbort,
        State.issue_of_busy h, h]

/-! ### Host accesses -/

/-- A register write answers a next state. -/
theorem writeReg_next (r : Reg) (v : Word) (s : State) : ∃ t, writeReg r v s = .next t := by
  cases r <;> first | exact issueWord_next v s | exact ⟨_, rfl⟩

/-- A host access faults exactly where it has no target, and is never refused (20 R64). -/
theorem hostAccess_next_or_fault (op : HostOp) (s : State) :
    (∃ t, hostAccess op s = .next t) ∨ ∃ a w, hostAccess op s = .fault (.busError a w) ∧ target a.toNat w = none := by
  cases op with
  | read a w =>
    simp only [hostAccess, hostRead]
    cases ht : target a.toNat w with
    | none   => exact .inr ⟨a, w, by simp, ht⟩
    | some t => exact .inl ⟨_, rfl⟩
  | write a w v =>
    simp only [hostAccess, hostWrite]
    cases ht : target a.toNat w with
    | none   => exact .inr ⟨a, w, by simp, ht⟩
    | some t =>
      cases t with
      | reg r     => exact .inl (writeReg_next r v s)
      | buf b off => exact .inl ⟨_, rfl⟩
      | unmapped  => exact .inl ⟨_, rfl⟩

/-- What a host access that answers a next state did (20 R61 to R69). -/
theorem hostAccess_cases {op : HostOp} {s t : State} (h : hostAccess op s = .next t) :
    (∃ v, t = { s with busRead := some v, draws := s.draws + 1 }) ∨
    (∃ a w v, op = .write a w v ∧
      ((target a.toNat w = some (.reg .cmd) ∧ issueWord v s = .next t) ∨
       (target a.toNat w = some (.reg .ctrl) ∧ t = s.writeCtrl v) ∨
       (target a.toNat w = some (.reg .status) ∧ t = s.writeStatus v) ∨
       (s.busy = true ∧ t = s.dropWrite) ∨
       (s.busy = false ∧ (t = { s with imgLen := v.extractLsb' 0 16 } ∨ t = { s with artLen := v.extractLsb' 0 16 } ∨
         t = { s with base := v.extractLsb' 0 16 } ∨ t = { s with maxRetry := v.extractLsb' 0 8 })) ∨
       (s.busy = false ∧ ∃ b off, target a.toNat w = some (.buf b off) ∧
         t = s.storeBuf b off ((List.range w).map (dataByte v))) ∨
       t = s)) := by
  cases op with
  | read a w =>
    simp only [hostAccess, hostRead] at h
    split at h
    · cases h
    · cases h; exact .inl ⟨_, rfl⟩
  | write a w v =>
    refine .inr ⟨a, w, v, rfl, ?_⟩
    simp only [hostAccess, hostWrite] at h
    cases ht : target a.toNat w with
    | none => simp [ht] at h
    | some tg =>
      simp only [ht] at h
      cases tg with
      | reg r =>
        simp only [] at h
        cases hb : s.busy <;> cases r <;> simp [writeReg, State.unlessBusy, hb] at h <;> simp_all
      | buf b off =>
        simp only [State.unlessBusy] at h
        cases hb : s.busy <;> simp [hb] at h
        · exact .inr (.inr (.inr (.inr (.inr (.inl ⟨rfl, b, off, rfl, h.symm⟩)))))
        · exact .inr (.inr (.inr (.inl ⟨rfl, h.symm⟩)))
      | unmapped => cases h; simp

/-- A buffer target lies in its window, whole (20 R60, R62). -/
theorem target_buf {a w : Nat} {b : Buf} {off : Nat} (h : target a w = some (.buf b off)) :
    (w = 1 ∨ w = 2 ∨ w = 4) ∧ a % w = 0 ∧
    ((b = .img ∧ 0x1000 ≤ a ∧ off = a - 0x1000 ∧ off + w ≤ Config.imgMax) ∨
     (b = .art ∧ 0x4000 ≤ a ∧ off = a - 0x4000 ∧ off + w ≤ Config.artMax)) := by
  unfold target at h
  split at h
  · next hc =>
    obtain ⟨hw, ha, hr⟩ := hc
    refine ⟨hw, ha, ?_⟩
    have hw0 : 1 ≤ w := by omega
    unfold regionOf at h hr
    by_cases h1 : a < 0x003C
    · simp [h1] at h
    · by_cases h2 : a < 0x1000
      · simp [h1, h2] at h
      · by_cases h3 : a < 0x4000
        · simp only [h1, h2, h3, if_false, if_true] at h hr
          simp only [Option.some.injEq, Target.buf.injEq] at h
          refine .inl ⟨h.1.symm, by omega, h.2.symm, ?_⟩
          simp only [Config.imgMax]
          rcases hw with rfl | rfl | rfl <;> omega
        · by_cases h4 : a < 0x7C00
          · simp only [h1, h2, h3, h4, if_false, if_true] at h hr
            simp only [Option.some.injEq, Target.buf.injEq] at h
            refine .inr ⟨h.1.symm, by omega, h.2.symm, ?_⟩
            simp only [Config.artMax]
            rcases hw with rfl | rfl | rfl <;> omega
          · simp [h1, h2, h3, h4] at h
  · cases h

/-- Outside an encryption phase a host read of `ART_LEN` shows the register (20 R61). -/
theorem shownArtLen_of_not_encrypting {s : State} (h : s.st ≠ .encrypting) : s.shownArtLen = s.artLen := by
  simp [State.shownArtLen, h]

/-- An ENCRYPT shows the register too: only a GENERATE's encryption phase can show the old length (70 R237). -/
theorem shownArtLen_of_not_generate {s : State} (h : s.running ≠ some .generate) : s.shownArtLen = s.artLen := by
  simp [State.shownArtLen, h]

/-! ### Command words -/

/-- The opcode of a word that decodes is its command's. -/
theorem opcode_of_decodeWord {w : Word} {i : Instr} (h : decodeWord w = .ok i) : i.opcode = opcOf w := by
  unfold decodeWord at h
  split at h <;> cases h
  all_goals
    next he =>
    apply BitVec.eq_of_toNat_eq
    rw [he]
    rfl

end Sys2Proof.Machine
end

