-- ==== Sys2Proof/Laws/Bus.lean ====
section
/-! SUPPORT. Which host accesses reach which target, and the bytes of a value read from the bus (20 R60 to R65). -/

namespace Sys2Proof.Machine

/-- A legal access of the image window (20 R60, R62). -/
theorem target_img {a w : Nat} (hw : w = 1 ∨ w = 2 ∨ w = 4) (ha : a % w = 0) (h1 : 0x1000 ≤ a) (h2 : a < 0x4000) :
    target a w = some (.buf .img (a - 0x1000)) := by
  have e : regionOf a = .imgWindow := by
    unfold regionOf; rw [if_neg (by omega), if_neg (by omega), if_pos (by omega)]
  have e2 : regionOf (a + w - 1) = .imgWindow := by
    unfold regionOf
    rw [if_neg (by omega), if_neg (by omega), if_pos (by rcases hw with rfl | rfl | rfl <;> omega)]
  unfold target
  rw [if_pos ⟨hw, ha, by rw [e, e2]⟩, e]

/-- A legal access of the artifact window (20 R60, R62). -/
theorem target_art {a w : Nat} (hw : w = 1 ∨ w = 2 ∨ w = 4) (ha : a % w = 0) (h1 : 0x4000 ≤ a) (h2 : a < 0x7C00) :
    target a w = some (.buf .art (a - 0x4000)) := by
  have e : regionOf a = .artWindow := by
    unfold regionOf; rw [if_neg (by omega), if_neg (by omega), if_neg (by omega), if_pos (by omega)]
  have e2 : regionOf (a + w - 1) = .artWindow := by
    unfold regionOf
    rw [if_neg (by omega), if_neg (by omega), if_neg (by omega),
      if_pos (by rcases hw with rfl | rfl | rfl <;> omega)]
  unfold target
  rw [if_pos ⟨hw, ha, by rw [e, e2]⟩, e]

/-- A legal access of an unmapped address (20 R65). -/
theorem target_unmapped {a w : Nat} (hw : w = 1 ∨ w = 2 ∨ w = 4) (ha : a % w = 0)
    (h : 0x3C ≤ a ∧ a < 0x1000 ∨ 0x7C00 ≤ a) : target a w = some .unmapped := by
  rcases h with h | h
  · have e : regionOf a = .pageHole := by unfold regionOf; rw [if_neg (by omega), if_pos (by omega)]
    have e2 : regionOf (a + w - 1) = .pageHole := by
      unfold regionOf
      rw [if_neg (by omega), if_pos (by rcases hw with rfl | rfl | rfl <;> omega)]
    unfold target
    rw [if_pos ⟨hw, ha, by rw [e, e2]⟩, e]
  · have e : ∀ b, a ≤ b → regionOf b = .topHole := by
      intro b hb
      unfold regionOf
      rw [if_neg (by omega), if_neg (by omega), if_neg (by omega), if_neg (by omega)]
    unfold target
    rw [if_pos ⟨hw, ha, by rw [e a (Nat.le_refl a), e (a + w - 1) (by omega)]⟩, e a (Nat.le_refl a)]

/-- A register is at its offset (10_state.md section 2). -/
@[simp] theorem target_reg (r : Reg) : target (BitVec.ofNat 16 r.offset).toNat 4 = some (.reg r) := by
  cases r <;> decide

/-- A register target is a register's offset, 4 bytes wide (20 R61). -/
theorem reg_of_target {a : Half} {w : Nat} {r : Reg} (h : target a.toNat w = some (.reg r)) :
    a = BitVec.ofNat 16 r.offset ∧ w = 4 := by
  unfold target at h
  split at h
  · split at h
    · split at h
      · next h4 =>
        refine ⟨?_, h4⟩
        unfold regAt at h
        split at h <;> simp only [Option.map_some, Option.map_none, Option.some.injEq, Target.reg.injEq, reduceCtorEq] at h
        all_goals
          subst h
          apply BitVec.eq_of_toNat_eq
          assumption
      · cases h
    all_goals cases h
  · cases h

/-- Byte `t` of a little-endian sum (20 R62). -/
theorem leValue_byte : ∀ (l : List Byte) (t : Nat), leValue l / 256 ^ t % 256 = (l.getD t 0#8).toNat
  | [], t         => by simp [leValue]
  | b :: l, 0     => by
    have := b.isLt
    simp only [leValue, pow_zero, Nat.div_one, List.getD_cons_zero]
    omega
  | b :: l, t + 1 => by
    have hb := b.isLt
    simp only [leValue, List.getD_cons_succ, ← leValue_byte l t]
    rw [pow_succ', ← Nat.div_div_eq_div_mul]
    congr 2
    omega

/-- A little-endian sum of `n` bytes is below `256 ^ n`. -/
theorem leValue_lt : ∀ l : List Byte, leValue l < 256 ^ l.length
  | []     => by simp [leValue]
  | b :: l => by
    have h := leValue_lt l
    have hb := b.isLt
    simp only [leValue, List.length_cons, pow_succ]
    omega

end Sys2Proof.Machine
end

