-- ==== Sys2Proof/Laws/Command.lean ====
section
/-! SUPPORT. What issuing a command can do, said once: dropped, cancelled, refused, completed, or one of the three starts. -/

namespace Sys2Proof.Machine

/-- What the acceptance of PACK or GENERATE does (41 R106, 42 R135). -/
theorem startPacking_cases (s : State) (g : Bool) (cmd : Running) :
    startPacking s g cmd = s.raiseError .range ∨
    (s.imgLen.toNat = 0 ∧ startPacking s g cmd = { s with artLen := 0#16 }.complete) ∨
    (s.imgLen.toNat ≤ Config.imgMax ∧ 0 < frameCount s.imgLen.toNat ∧
      s.base.toNat + Config.chunk * (frameCount s.imgLen.toNat - 1) ≤ 0xFFFF ∧
      startPacking s g cmd =
        { s with nfrm := frameCount s.imgLen.toNat, k := 0, gen := g, st := .packing, running := some cmd }) := by
  unfold startPacking
  split
  · exact .inl rfl
  · next hr =>
    simp only [packOutOfRange, Bool.or_eq_true, Bool.and_eq_true, decide_eq_true_eq] at hr
    split
    · next h0 => exact .inr (.inl ⟨by simp only [frameCount] at h0; omega, rfl⟩)
    · exact .inr (.inr ⟨by omega, by omega, by omega, rfl⟩)

/-- What the acceptance of ENCRYPT does (42 R132). -/
theorem startEncrypt_cases (s : State) :
    (∃ c, c ≠ ErrorCode.noError ∧ startEncrypt s = s.raiseError c) ∨ (s.artLen.toNat = 0 ∧ startEncrypt s = s.complete) ∨
    (s.artLen.toNat ≤ Config.artMax ∧ 0 < s.artLen.toNat / Config.blockLen ∧
      Config.blockLen * (s.artLen.toNat / Config.blockLen) = s.artLen.toNat ∧
      startEncrypt s = { startBlocks s with running := some .encrypt }) := by
  unfold startEncrypt
  simp only [Config.artMax, Config.blockLen]
  split
  · exact .inl ⟨_, by decide, rfl⟩
  · split
    · exact .inl ⟨_, by decide, rfl⟩
    · split
      · exact .inr (.inl ⟨by omega, rfl⟩)
      · exact .inr (.inr ⟨by omega, by omega, by omega, rfl⟩)

/-- What the acceptance of FLASH does (44 R171, R172). -/
theorem startFlash_cases (s : State) :
    (∃ c, c ≠ ErrorCode.noError ∧ startFlash s = s.raiseError c) ∨
    (s.linkOk = true ∧ s.artLen.toNat ≤ Config.artMax ∧
      s.artLen.toNat = Config.totalSize * (s.artLen.toNat / Config.totalSize) ∧
      startFlash s = { s.openPort with
        nblk := s.artLen.toNat / Config.totalSize, blkIdx := 0#16, attempt := 0#8, progress := 0#16, lastAck := .none,
        txpos := 0, st := .connected, running := some .flash }) := by
  unfold startFlash openForFlash
  simp only [Config.artMax, Config.totalSize]
  split
  · exact .inl ⟨_, by decide, rfl⟩
  · split
    · exact .inl ⟨_, by decide, rfl⟩
    · split
      · exact .inr ⟨by assumption, by omega, by omega, rfl⟩
      · exact .inl ⟨_, by decide, rfl⟩

/-- What the acceptance of CKSUM does (41 R109). -/
theorem startCksum_cases (k : Nat) (s : State) :
    startCksum k s = s.raiseError .range ∨
    ∃ sum stored eq, startCksum k s = { s with cksumCalc := sum, cksumStored := stored, matched := eq }.complete := by
  unfold startCksum
  split
  · exact .inl rfl
  · split
    · exact .inl rfl
    · exact .inr ⟨_, _, _, rfl⟩

/-- What the acceptance of TESTPAT does (41 R100). -/
theorem startTestpat_cases (s : State) :
    startTestpat s = s.raiseError .range ∨
    (256 ≤ s.imgLen.toNat ∧ startTestpat s = { s with img := s.img.writeBytes 0 testPattern }.complete) := by
  unfold startTestpat
  split
  · exact .inl rfl
  · split
    · exact .inl rfl
    · exact .inr ⟨by omega, rfl⟩

/-- A command accepted while not busy (40 R91): refused, completed, or started. -/
def State.Accepted (s t : State) : Prop :=
  (∃ c, c ≠ ErrorCode.noError ∧ t = s.accept.raiseError c) ∨
  t = s.accept.complete ∨
  t = { s.accept with artLen := 0#16 }.complete ∨
  t = { s.accept with img := s.img.writeBytes 0 testPattern }.complete ∨
  (∃ sum stored eq, t = { s.accept with cksumCalc := sum, cksumStored := stored, matched := eq }.complete) ∨
  (∃ g, s.imgLen.toNat ≤ Config.imgMax ∧ 0 < frameCount s.imgLen.toNat ∧
    s.base.toNat + Config.chunk * (frameCount s.imgLen.toNat - 1) ≤ 0xFFFF ∧
    t = { s.accept with nfrm := frameCount s.imgLen.toNat, k := 0, gen := g, st := .packing,
                        running := some (if g then .generate else .pack) }) ∨
  (s.artLen.toNat ≤ Config.artMax ∧ 0 < s.artLen.toNat / Config.blockLen ∧
    Config.blockLen * (s.artLen.toNat / Config.blockLen) = s.artLen.toNat ∧
    t = { startBlocks s.accept with running := some .encrypt }) ∨
  (s.linkOk = true ∧ s.artLen.toNat ≤ Config.artMax ∧
    s.artLen.toNat = Config.totalSize * (s.artLen.toNat / Config.totalSize) ∧
    t = { s.accept.openPort with
      nblk := s.artLen.toNat / Config.totalSize, blkIdx := 0#16, attempt := 0#8, progress := 0#16, lastAck := .none,
      txpos := 0, st := .connected, running := some .flash })

/-- What a command can do at issue (40 R91, R92; 44 R182). -/
theorem exec_cases {i : Instr} {s t : State} (h : exec i s = .next t) :
    (i = .abort ∧ s.busy = false ∧ t = s) ∨ (i = .abort ∧ s.busy = true ∧ t = cancel s) ∨
    (i ≠ .abort ∧ s.busy = true ∧ t = s.dropWrite) ∨ (i ≠ .abort ∧ s.busy = false ∧ s.Accepted t) := by
  cases hb : s.busy with
  | true =>
    cases i <;>
      simp only [exec, execNop, execTestpat, execPack, execEncrypt, execGenerate, execCksum, execFlash, execAbort,
        State.issue_of_busy hb, hb, if_true, Host.Outcome.next.injEq] at h <;> simp [h]
  | false =>
    cases i <;>
      simp only [exec, execNop, execTestpat, execPack, execEncrypt, execGenerate, execCksum, execFlash, execAbort,
        State.issue_of_idle hb, hb, Bool.false_eq_true, if_false, Host.Outcome.next.injEq] at h <;> subst h
    case abort => exact .inl ⟨rfl, rfl, rfl⟩
    all_goals
      refine .inr (.inr (.inr ⟨nofun, rfl, ?_⟩))
      unfold State.Accepted
    · exact .inr (.inl rfl)
    · rcases startTestpat_cases s.accept with h | ⟨-, h⟩ <;> rw [h]
      · exact .inl ⟨_, by decide, rfl⟩
      · exact .inr (.inr (.inr (.inl rfl)))
    · rcases startPacking_cases s.accept false .pack with h | ⟨-, h⟩ | ⟨h1, h2, h3, h⟩ <;> rw [h]
      · exact .inl ⟨_, by decide, rfl⟩
      · exact .inr (.inr (.inl rfl))
      · exact .inr (.inr (.inr (.inr (.inr (.inl ⟨false, h1, h2, h3, rfl⟩)))))
    · rcases startEncrypt_cases s.accept with ⟨c, hc, h⟩ | ⟨-, h⟩ | ⟨h1, h2, h3, h⟩ <;> rw [h]
      · exact .inl ⟨c, hc, rfl⟩
      · exact .inr (.inl rfl)
      · exact .inr (.inr (.inr (.inr (.inr (.inr (.inl ⟨h1, h2, h3, rfl⟩))))))
    · rcases startPacking_cases s.accept true .generate with h | ⟨-, h⟩ | ⟨h1, h2, h3, h⟩ <;> rw [h]
      · exact .inl ⟨_, by decide, rfl⟩
      · exact .inr (.inr (.inl rfl))
      · exact .inr (.inr (.inr (.inr (.inr (.inl ⟨true, h1, h2, h3, rfl⟩)))))
    · rename_i k
      rcases startCksum_cases k s.accept with h | ⟨c, d, e, h⟩ <;> rw [h]
      · exact .inl ⟨_, by decide, rfl⟩
      · exact .inr (.inr (.inr (.inr (.inl ⟨c, d, e, rfl⟩))))
    · rcases startFlash_cases s.accept with ⟨c, hc, h⟩ | ⟨h1, h2, h3, h⟩ <;> rw [h]
      · exact .inl ⟨c, hc, rfl⟩
      · exact .inr (.inr (.inr (.inr (.inr (.inr (.inr ⟨h1, h2, h3, rfl⟩))))))

/-- What the host's write of a command word can do (40 R90 to R92). -/
theorem issueWord_cases {v : Word} {s t : State} (h : issueWord v s = .next t) :
    (opcOf v = 0x21#8 ∧ s.busy = false ∧ t = s) ∨ (opcOf v = 0x21#8 ∧ s.busy = true ∧ t = cancel s) ∨
    (s.busy = true ∧ t = s.dropWrite) ∨ (opcOf v ≠ 0x21#8 ∧ s.busy = false ∧ s.Accepted t) := by
  unfold issueWord at h
  cases hd : decodeWord v with
  | ok i =>
    rw [hd] at h
    have ho := opcode_of_decodeWord hd
    rcases exec_cases h with ⟨rfl, h2⟩ | ⟨rfl, h2⟩ | ⟨-, h2⟩ | ⟨hi, h2⟩
    · exact .inl ⟨ho.symm, h2⟩
    · exact .inr (.inl ⟨ho.symm, h2⟩)
    · exact .inr (.inr (.inl h2))
    · refine .inr (.inr (.inr ⟨?_, h2⟩))
      rw [← ho]
      cases i <;> first | exact absurd rfl hi | (simp only [Instr.opcode]; decide)
  | error e =>
    rw [hd] at h
    cases h
    have hr : opcOf v ≠ 0x21#8 := by
      intro he
      unfold decodeWord at hd
      rw [he] at hd
      cases hd
    cases hb : s.busy with
    | true  => exact .inr (.inr (.inl ⟨rfl, by rw [issueReserved, State.issue_of_busy hb]⟩))
    | false =>
      refine .inr (.inr (.inr ⟨hr, rfl, ?_⟩))
      rw [issueReserved, State.issue_of_idle hb]
      exact .inl ⟨_, by decide, rfl⟩

end Sys2Proof.Machine
end

