-- ==== Sys2Proof/Laws/Encoding.lean ====
section
/-! SUPPORT. The fields of a command word: what the encoder puts in them, and the word of its four bytes. -/

namespace Sys2Proof

/-- The opcode field of an encoded command is its opcode (30 R80, R82). -/
theorem opcOf_encode (i : Instr) : opcOf (encode i) = i.opcode := by
  apply BitVec.eq_of_getLsbD_eq
  intro n hn
  simp only [opcOf, encode, BitVec.getLsbD_append, BitVec.getLsbD_extractLsb']
  interval_cases n <;> simp

/-- The operand field of an encoded command is its operand mod 2^16 (30 R81). -/
theorem argOf_encode (i : Instr) : argOf (encode i) = BitVec.ofNat 16 i.arg := by
  apply BitVec.eq_of_getLsbD_eq
  intro n hn
  simp only [argOf, encode, BitVec.getLsbD_append, BitVec.getLsbD_extractLsb']
  interval_cases n <;> simp

/-- A word is its four bytes. -/
theorem word_of_bytes (w : Word) :
    (w.extractLsb' 24 8 ++ w.extractLsb' 16 8 ++ w.extractLsb' 8 8 ++ w.extractLsb' 0 8 : BitVec 32) = w := by
  apply BitVec.eq_of_getLsbD_eq
  intro n hn
  simp only [BitVec.getLsbD_append, BitVec.getLsbD_extractLsb']
  interval_cases n <;> simp

/-- Two commands of one opcode are the same, but for CKSUM's operand (30 R82). -/
theorem eq_of_opcode_eq {i i' : Instr} (h : i.opcode = i'.opcode) :
    i = i' ∨ ∃ k k', i = .cksum k ∧ i' = .cksum k' := by
  cases i <;> cases i' <;> first
    | exact .inl rfl
    | exact .inr ⟨_, _, rfl, rfl⟩
    | (simp only [Instr.opcode] at h; exact absurd h (by decide))

end Sys2Proof
end

