-- ==== Sys2Proof/Laws/Frame.lean ====
section
/-! SUPPORT. 16-bit fields as bytes, the shape of a frame, and reading back what was stored in the artifact buffer. -/

namespace Sys2Proof.Machine

@[simp] theorem length_put16 (bo : ByteOrder) (v : Half) : (put16 bo v).length = 2 := by cases bo <;> rfl

@[simp] theorem length_testPattern : testPattern.length = 256 := by
  unfold testPattern
  rw [List.length_map, List.length_range]

@[simp] theorem length_bytesOfBlock (c : Block) : (bytesOfBlock c).length = 16 := by simp [bytesOfBlock]

/-- `get16` is the inverse of `put16` (00 R11). -/
theorem put16_get16 (bo : ByteOrder) (v : Half) : ∃ a b, put16 bo v = [a, b] ∧ get16 bo a b = v.toNat := by
  have := v.isLt
  cases bo <;> refine ⟨_, _, rfl, ?_⟩ <;>
    simp only [get16, BitVec.extractLsb'_toNat, Nat.shiftRight_eq_div_pow, pow_zero, Nat.div_one] <;> omega

/-- The shape of a frame (41 R102, R103, R105): header without checksum, checksum, payload and pad. -/
theorem frameOf_shape (p : Params) (addr len : Half) (pay : List Byte) (h : pay.length ≤ 72) :
    ∃ head tail c0 c1, head.length = 6 ∧ tail.length = 72 ∧
      head = put16 p.byteOrder 0x1337#16 ++ put16 p.byteOrder addr ++ put16 p.byteOrder len ∧
      tail = pay ++ List.replicate (72 - pay.length) (BitVec.ofNat 8 (72 - pay.length)) ∧
      frameZero p.byteOrder addr len pay = head ++ [0#8, 0#8] ++ tail ∧
      put16 p.byteOrder (cksumOf p (frameZero p.byteOrder addr len pay)) = [c0, c1] ∧
      get16 p.byteOrder c0 c1 = (cksumOf p (frameZero p.byteOrder addr len pay)).toNat ∧
      frameOf p addr len pay = head ++ [c0, c1] ++ tail := by
  obtain ⟨c0, c1, hc, hg⟩ := put16_get16 p.byteOrder (cksumOf p (frameZero p.byteOrder addr len pay))
  have zero : put16 p.byteOrder 0#16 = [0#8, 0#8] := by cases p.byteOrder <;> rfl
  have six : (put16 p.byteOrder 0x1337#16 ++ put16 p.byteOrder addr ++ put16 p.byteOrder len).length = 6 := by simp
  have pad : Config.totalSize - Config.hdr - pay.length = 72 - pay.length := by simp
  have whole : frameZero p.byteOrder addr len pay =
      (put16 p.byteOrder 0x1337#16 ++ put16 p.byteOrder addr ++ put16 p.byteOrder len) ++ [0#8, 0#8] ++
        (pay ++ List.replicate (72 - pay.length) (BitVec.ofNat 8 (72 - pay.length))) := by
    simp only [frameZero, zero, rep, Config.magic, pad, List.append_assoc]
  refine ⟨_, _, c0, c1, six, ?_, rfl, rfl, whole, hc, hg, ?_⟩
  · simp only [List.length_append, List.length_replicate]; omega
  · unfold frameOf
    simp only [hc]
    rw [whole]
    generalize (put16 p.byteOrder 0x1337#16 ++ put16 p.byteOrder addr ++ put16 p.byteOrder len) = head at six
    generalize (pay ++ List.replicate (72 - pay.length) (BitVec.ofNat 8 (72 - pay.length))) = tail
    congr 2
    · rw [List.append_assoc, List.take_append_of_le_length (by omega), List.take_of_length_le (by omega)]
    · rw [List.drop_append, List.drop_of_length_le (by simp; omega)]
      simp [six]

/-- Every frame of a state is 80 bytes (41 R103). -/
@[simp] theorem length_frame (s : State) (k : Nat) : (s.frame k).length = 80 := by
  unfold State.frame
  have hp : (s.imgBytes (Config.chunk * k) (payloadLen s.imgLen.toNat k)).length ≤ 72 := by
    simp [State.imgBytes, payloadLen]
  obtain ⟨head, tail, c0, c1, l6, l72, -, -, -, -, -, hf⟩ :=
    frameOf_shape s.cfg (BitVec.ofNat 16 (s.base.toNat + Config.chunk * k)) s.imgLen _ hp
  rw [hf]
  simp only [List.length_append, List.length_cons, List.length_nil]
  omega

/-- A frame depends on the configuration, BASE, IMG_LEN and IMG alone. -/
theorem frame_congr {s t : State} (hc : t.cfg = s.cfg) (hb : t.base = s.base) (hl : t.imgLen = s.imgLen) (hi : t.img = s.img)
    (k : Nat) : t.frame k = s.frame k := by
  unfold State.frame State.imgBytes State.imgAt
  rw [hc, hb, hl, hi]

/-- The bytes just stored in the artifact buffer read back. -/
theorem artBytes_stored {s t : State} (h : s.art.wf = true) {a : Nat} {l : List Byte} (ht : t.art = s.art.writeBytes a l) :
    t.artBytes a l.length = l := by
  unfold State.artBytes State.artAt
  rw [ht]
  exact Memory.readBack h .art a l

/-- Bytes apart from those stored in the artifact buffer read as before. -/
theorem artBytes_apart {s t : State} (h : s.art.wf = true) {a b n : Nat} {l : List Byte}
    (ht : t.art = s.art.writeBytes a l) (hd : b + n ≤ a ∨ a + l.length ≤ b) : t.artBytes b n = s.artBytes b n := by
  unfold State.artBytes State.artAt
  rw [ht]
  apply List.map_congr_left
  intro x hx
  simp only [List.mem_range] at hx
  exact Memory.byteAt_writeBytes_outside h .art l (by omega)

/-- A run of artifact bytes splits at any point. -/
theorem artBytes_add (s : State) (a m n : Nat) : s.artBytes a (m + n) = s.artBytes a m ++ s.artBytes (a + m) n := by
  unfold State.artBytes
  rw [List.range_add, List.map_append, List.map_map]
  congr 1
  apply List.map_congr_left
  intro x _
  simp [Nat.add_assoc]

end Sys2Proof.Machine
end

