-- ==== Sys2Proof/Laws/PerInstr.lean ====
section
/-! SUPPORT. The statement families made per instruction (LAWS.json). -/

namespace Sys2Proof.Laws

/-- The opcode and operand fields of a well-formed command's word are its own, and its reserved byte is 0 (30 R80 to R82). -/
def EncodedFields.Statement (i : Instr) : Prop :=
  i.wf = true → opcOf (encode i) = i.opcode ∧ (argOf (encode i)).toNat = i.arg ∧ (encode i).extractLsb' 24 8 = 0#8

/-- The fields of any command whose operand fits. -/
theorem encodedFields_of_fits {i : Instr} (h : i.arg < 65536) :
    opcOf (encode i) = i.opcode ∧ (argOf (encode i)).toNat = i.arg ∧ (encode i).extractLsb' 24 8 = 0#8 := by
  refine ⟨opcOf_encode i, ?_, ?_⟩
  · rw [argOf_encode, BitVec.toNat_ofNat]
    exact Nat.mod_eq_of_lt h
  · apply BitVec.eq_of_getLsbD_eq
    intro n hn
    simp only [encode, BitVec.getLsbD_append, BitVec.getLsbD_extractLsb']
    interval_cases n <;> simp

theorem EncodedFields.nop : EncodedFields.Statement .nop := fun _ => encodedFields_of_fits (by decide)
theorem EncodedFields.testpat : EncodedFields.Statement .testpat := fun _ => encodedFields_of_fits (by decide)
theorem EncodedFields.pack : EncodedFields.Statement .pack := fun _ => encodedFields_of_fits (by decide)
theorem EncodedFields.encrypt : EncodedFields.Statement .encrypt := fun _ => encodedFields_of_fits (by decide)
theorem EncodedFields.generate : EncodedFields.Statement .generate := fun _ => encodedFields_of_fits (by decide)
theorem EncodedFields.cksum (k : Nat) : EncodedFields.Statement (.cksum k) := fun h =>
  encodedFields_of_fits (by simpa [Instr.wf, argFits, Instr.arg] using h)
theorem EncodedFields.flash : EncodedFields.Statement .flash := fun _ => encodedFields_of_fits (by decide)
theorem EncodedFields.abort : EncodedFields.Statement .abort := fun _ => encodedFields_of_fits (by decide)

end Sys2Proof.Laws
end

