-- ==== Sys2Proof/Tests/Slice0.lean ====
section
/-! SUPPORT. Tests. The expected values are the spec's (95_test_vectors.md, 30 R87 and the worked examples of the rules), named at
each test; then a witness for the hypotheses of every obligation. -/

namespace Sys2Proof.Tests

open Sys2Proof.Machine Sys2Proof.Spec

/-! ### Small states -/

/-- The next state, if there is one. -/
def answer (o : Host.Outcome State Fault Refusal) : Option State :=
  match o with
  | .next s    => some s
  | .fault _   => none
  | .refused _ => none

/-- An idle machine with a concrete configuration. -/
def idle : State := { State.reset with cfg := ⟨.le, .fold, 3#8, 2⟩, cv := 0#128 }

/-- An idle machine with these lengths. -/
def withLens (img art : Half) : State := { idle with imgLen := img, artLen := art }

/-- A machine packing an image of 65 bytes, frame `k` next. -/
def packing (k : Nat) (generate : Bool) : State :=
  { idle with
    imgLen := 65#16, nfrm := 2, k := k, gen := generate, st := .packing,
    running := some (if generate then .generate else .pack), img := (Memory.mk [] 0).writeBytes 0 [0x00#8] }

/-- A machine encrypting an artifact of 32 bytes, block `j` next. -/
def encrypting (j : Nat) (cmd : Running) : State :=
  { idle with artLen := 32#16, nblk16 := 2, j := j, st := .encrypting, running := some cmd }

/-- A machine flashing two blocks, in `st`, at block `i`, byte `p`. -/
def flashing (st : EngState) (i : Half) (p : Nat) : State :=
  { idle with
    artLen := 160#16, nblk := 2, st := st, blkIdx := i, txpos := p, progress := 80#16 * i, portOpen := true,
    running := some .flash }

/-- A machine whose artifact holds the frame 0 of 95 V-F3, and its length. -/
def framed : State :=
  { idle with
    artLen := 320#16
    art := (Memory.mk [] 0).writeBytes 0
      ([0x37#8, 0x13#8, 0x00#8, 0x10#8, 0x00#8, 0x01#8, 0x3B#8, 0x48#8] ++
        (List.range 64).map (fun n => BitVec.ofNat 8 n) ++ List.replicate 8 0x08#8) }

/-! ### Well-formedness: each check refuses an ill-formed term -/

theorem test_wf_refuses_a_cksum_index_of_17_bits : (Instr.cksum 65536).wf = false := by decide
theorem test_argFits_is_the_check : argFits 65536 = false ∧ argFits 65535 = true := by decide

/-! ### Decoding, each word written out from 30 R80 and R82: RSV, ARG, OPC -/

theorem test_decode_nop : decodeWord 0b00000000000000000000000000000000#32 = .ok .nop := by decide
theorem test_decode_testpat : decodeWord 0b00000000000000000000000000000001#32 = .ok .testpat := by decide
theorem test_decode_pack : decodeWord 0b00000000000000000000000000010000#32 = .ok .pack := by decide
theorem test_decode_encrypt : decodeWord 0b00000000000000000000000000010001#32 = .ok .encrypt := by decide
theorem test_decode_generate : decodeWord 0b00000000000000000000000000010010#32 = .ok .generate := by decide
/-- `CKSUM 3` and `CKSUM 191` (30 R87): the operand is bits 23:8. -/
theorem test_decode_cksum :
    decodeWord 0b00000000000000000000001100010011#32 = .ok (.cksum 3) ∧
    decodeWord 0b00000000000000001011111100010011#32 = .ok (.cksum 191) ∧
    decodeWord 0b00000000100000000000000000010011#32 = .ok (.cksum 32768) := by decide
theorem test_decode_flash : decodeWord 0b00000000000000000000000000100000#32 = .ok .flash := by decide
theorem test_decode_abort : decodeWord 0b00000000000000000000000000100001#32 = .ok .abort := by decide
/-- 95 V-K2, V-K6; 30 R81: RSV and an unused ARG are ignored. -/
theorem test_decode_ignores_rsv_and_arg :
    decodeWord 0xFF000000#32 = .ok .nop ∧ decodeWord 0x00FFFF10#32 = .ok .pack := by decide
/-- 30 R83: the neighbours of the opcodes are reserved. -/
theorem test_decode_reserved :
    decodeWord 0x02#32 = .error (.reserved 0x02#8) ∧ decodeWord 0x14#32 = .error (.reserved 0x14#8) ∧
    decodeWord 0x22#32 = .error (.reserved 0x22#8) ∧ decodeWord 0xFF#32 = .error (.reserved 0xFF#8) := by decide
theorem test_decode_bytes :
    decode [0x13#8, 0x03#8, 0x00#8, 0x00#8, 0x21#8] = .ok (.cksum 3, [0x21#8]) ∧
    decode [0x13#8, 0x03#8, 0x00#8] = .error (.short 3) := by decide
theorem test_decodeTableWord :
    decodeTableWord 32 0x313 = some (.cksum 3) ∧ decodeTableWord 8 0x21 = some .abort ∧
    decodeTableWord 32 0x05 = none := by decide
theorem test_withFetchWord_runs_the_word :
    ((answer (step (State.reset.withFetchWord 32 0))).map fun t => (t.st, t.done)) = some (.done, true) := by decide

/-! ### The commands -/

/-- 95 V-K1. -/
theorem test_nop_after_an_error :
    ((answer (exec .nop { idle with err := true, errCode := .range, st := .aborted })).map fun t =>
      (t.statusWord, t.errCode)) = some (0x00000702#32, .noError) := by decide
/-- 95 V-K7. -/
theorem test_nop_keeps_werr :
    ((answer (exec .nop { idle with werr := true })).map fun t => t.statusWord) = some 0x00000722#32 := by decide
/-- 95 V-K3. -/
theorem test_reserved_opcode :
    ((answer (step { idle with schedule := [wr .cmd 0x05#32] })).map fun t =>
      (t.statusWord, t.errCode.code, t.errIndex, t.errOffset)) = some (0x00000804#32, 0x01#8, 0#16, 0#16) := by decide
/-- 95 V-F12. -/
theorem test_testpat_bytes :
    ((answer (exec .testpat { withLens 0x3000#16 0#16 with
        img := (Memory.mk [] 0).writeBytes 255 [0xAA#8, 0xAA#8] })).map fun t =>
      (t.imgBytes 0 4, t.imgBytes 255 2, t.imgLen)) =
    some ([0x00#8, 0x01#8, 0x02#8, 0x03#8], [0xFF#8, 0xAA#8], 0x3000#16) := by decide +kernel
/-- 95 V-F11. -/
theorem test_testpat_range :
    ((answer (exec .testpat (withLens 255#16 0#16))).map fun t => (t.errCode, t.st)) = some (.range, .aborted) := by decide
/-- 95 V-F11: the last frame's address 0x10000 does not fit, 0xFFC0 does. -/
theorem test_pack_address :
    ((answer (exec .pack { withLens 128#16 0#16 with base := 0xFFC0#16 })).map fun t => t.errCode) = some .range ∧
    ((answer (exec .pack { withLens 64#16 0#16 with base := 0xFFC0#16 })).map fun t => (t.st, t.nfrm)) =
      some (.packing, 1) := by decide
/-- 95 V-F4, L = 1: header, payload byte, first and last pad byte. -/
theorem test_pack_frame :
    ((answer (step { packing 0 false with imgLen := 1#16, nfrm := 1 })).map fun t =>
      (t.artBytes 0 10, t.artBytes 78 2, t.artLen, t.statusWord)) =
    some ([0x37#8, 0x13#8, 0x00#8, 0x10#8, 0x01#8, 0x00#8, 0xF7#8, 0x28#8, 0x00#8, 0x47#8], [0x47#8, 0x47#8], 80#16,
      0x00000702#32) := by decide +kernel
/-- 95 V-E2: RANGE, not ALIGN. -/
theorem test_encrypt_priority :
    ((answer (exec .encrypt (withLens 0#16 15370#16))).map fun t => t.errCode) = some .range ∧
    ((answer (exec .encrypt (withLens 0#16 70#16))).map fun t => t.errCode) = some .align := by decide
/-- 95 V-C1, V-C2: the published block values stand for `E_K`. -/
def publishedBlocks (b : Block) : Block :=
  if b = 0#128 then 0x79D8C8A162814F6F825B8F87373BA1C6#128
  else if b = 0x79D8C8A162814F6F825B8F87373BA1C6#128 then 0x5889D93A14C4B19271C8DAF726999DAF#128
  else 0#128
/-- 95 V-C1: two blocks of zeros. -/
theorem test_encrypt_chains :
    let s : State := { encrypting 0 .encrypt with art := (Memory.mk [] 0).writeBytes 0 (List.replicate 32 0x00#8) }
    (encryptStepWith publishedBlocks (encryptStepWith publishedBlocks s)).artBytes 0 32 =
      [0xC6#8, 0xA1#8, 0x3B#8, 0x37#8, 0x87#8, 0x8F#8, 0x5B#8, 0x82#8, 0x6F#8, 0x4F#8, 0x81#8, 0x62#8, 0xA1#8, 0xC8#8,
        0xD8#8, 0x79#8] ++
      [0xAF#8, 0x9D#8, 0x99#8, 0x26#8, 0xF7#8, 0xDA#8, 0xC8#8, 0x71#8, 0x92#8, 0xB1#8, 0xC4#8, 0x14#8, 0x3A#8, 0xD9#8,
        0x89#8, 0x58#8] := by decide +kernel
/-- 42 R135: no completion between the phases; the encryption phase has 5 blocks a frame. -/
theorem test_generate_phases :
    ((answer (exec .generate (withLens 128#16 0#16))).map fun t => (t.st, t.nfrm, t.gen)) = some (.packing, 2, true) ∧
    ((answer (step (packing 1 true))).map fun t => (t.st, t.nblk16, t.gen, t.done, t.artLen)) =
      some (.encrypting, 10, false, false, 160#16) := by decide +kernel
/-- 70 R237: after the last PACK step of a GENERATE the host reads the length of before, after the completing step the new one. -/
theorem test_generate_length_shown :
    ((answer (step { packing 1 true with artLen := 7#16 })).map fun t => (t.artLen, t.shownArtLen, t.complete.shownArtLen)) =
      some (160#16, 7#16, 160#16) := by decide +kernel
/-- 95 V-F9: a changed payload byte is a mismatch, not an error. -/
theorem test_cksum_mismatch :
    ((answer (exec (.cksum 0) { framed with art := framed.art.write 8 0x01#8 })).map fun t =>
      (t.cksumStored, t.cksumCalc, t.statusWord)) = some (0x483B#16, 0x483C#16, 0x00000702#32) := by decide +kernel
/-- 95 V-F3, V-F9: a match, and the first index out of range. -/
theorem test_cksum_match_and_range :
    ((answer (exec (.cksum 0) framed)).map fun t => (t.cksumCalc, t.statusWord)) = some (0x483B#16, 0x00000712#32) ∧
    ((answer (exec (.cksum 4) framed)).map fun t => t.errCode) = some .range := by decide +kernel
/-- 95 V-S7, V-S8, V-S9. -/
theorem test_flash_refusals :
    ((answer (exec .flash (withLens 0#16 70#16))).map fun t => t.errCode.code) = some 4#8 ∧
    ((answer (exec .flash (withLens 0#16 15440#16))).map fun t => t.errCode.code) = some 2#8 ∧
    ((answer (exec .flash { withLens 0#16 160#16 with linkOk := false, blkIdx := 7#16 })).map fun t =>
      (t.errCode.code, t.errIndex, t.blkIdx)) = some (5#8, 0#16, 7#16) := by decide
/-- 95 P2: STATUS right after FLASH is CONNECTED, PORT, BUSY. -/
theorem test_flash_opens :
    ((answer (exec .flash (withLens 0#16 160#16))).map fun t => (t.statusWord, t.nblk)) = some (0x00000341#32, 2) := by decide
/-- 95 V-K4. -/
theorem test_abort_idle :
    ((answer (exec .abort { idle with err := true, st := .aborted })).map fun t => t.statusWord) = some 0x00000804#32 := by
  decide
/-- The example of 44 R182. -/
theorem test_abort_sending :
    ((answer (exec .abort (flashing .sending 3#16 10))).map fun t =>
      (t.errCode.code, t.errIndex, t.errOffset, t.statusWord)) = some (8#8, 3#16, 240#16, 0x00000804#32) := by decide

/-! ### Checksums -/

/-- 95 V-F6: words 0x0000 and 0xFFFF fold alike, and not under MOD16. -/
theorem test_fold_alike :
    cksumOf ⟨.le, .fold, 3#8, 1⟩ (frameZero .le 0x1000#16 64#16 (List.replicate 64 0x00#8)) = 0x4397#16 ∧
    cksumOf ⟨.le, .fold, 3#8, 1⟩ (frameZero .le 0x1000#16 64#16 (List.replicate 64 0xFF#8)) = 0x4397#16 ∧
    cksumOf ⟨.le, .mod16, 3#8, 1⟩ (frameZero .le 0x1000#16 64#16 (List.replicate 64 0xFF#8)) = 0x4377#16 := by
  decide +kernel
/-- 95 V-F7: the second fold. -/
theorem test_fold_twice :
    cksumOf ⟨.le, .fold, 3#8, 1⟩ (frameZero .le 0x1000#16 64#16 (List.replicate 62 0xFF#8 ++ [0x69#8, 0xBC#8])) =
      0x0001#16 := by decide +kernel
/-- 95 V-F8: frame 0, big-endian. -/
theorem test_frame_be :
    (frameOf ⟨.be, .fold, 3#8, 1⟩ 0x1000#16 0x3000#16 ((List.range 64).map fun n => BitVec.ofNat 8 n)).take 8 =
      [0x13#8, 0x37#8, 0x10#8, 0x00#8, 0x30#8, 0x00#8, 0x57#8, 0x5B#8] := by decide +kernel

/-! ### The host's accesses -/

/-- 95 V-M1, V-M2, V-M4. -/
theorem test_buffer_reads :
    ((answer (step { framed with schedule := [rdh 0x4000#16] })).bind fun t => t.busRead) = some 0x1337#32 ∧
    ((answer (step { framed with schedule := [rdw 0x4004#16] })).bind fun t => t.busRead) = some 0x483B0100#32 ∧
    ((answer (step { framed with schedule := [rdb 0x404F#16] })).bind fun t => t.busRead) = some 0x08#32 := by
  decide +kernel
/-- 95 V-M5, V-M6, V-M10: bus errors. -/
theorem test_bus_errors :
    target 0x4001 2 = none ∧ target 0x0008 1 = none ∧ target 0x3FFE 4 = none ∧ target 0x4000 3 = none ∧
    target 0x0002 4 = none := by decide
/-- 95 V-M7, V-M8, V-M9: unmapped, unmapped, the last word of ART. -/
theorem test_bus_targets :
    target 0x0040 4 = some .unmapped ∧ target 0x7C00 4 = some .unmapped ∧ target 0x7BFC 4 = some (.buf .art 0x3BFC) ∧
    target 0x3FFC 4 = some (.buf .img 0x2FFC) ∧ target 0x0038 4 = some (.reg .cksum) := by decide
/-- 95 P2 step 2: little-endian word writes. -/
theorem test_buffer_write :
    ((answer (step { idle with schedule := [wrw 0x1004#16 0x07060504#32] })).map fun t => t.imgBytes 4 4) =
      some [0x04#8, 0x05#8, 0x06#8, 0x07#8] := by decide
/-- 95 V-K5: a busy command is dropped; P5: so is a busy buffer write. -/
theorem test_busy_writes :
    ((answer (step { flashing .sending 0#16 5 with schedule := [wr .cmd 0x10#32] })).map fun t => (t.werr, t.st)) =
      some (true, .sending) ∧
    ((answer (step { flashing .sending 0#16 5 with schedule := [wrb 0x4000#16 0xFF#8] })).map fun t => (t.werr, t.art)) =
      some (true, idle.art) := by decide
/-- 30 R86, 10 R25: `clr` clears DONE, ERR, PROG, WERR and leaves MATCH. -/
theorem test_clr :
    ((answer (step { idle with done := true, prog := true, matched := true, werr := true, st := .done, schedule := [clr] })).map
      fun t => t.statusWord) = some 0x00000710#32 := by decide
/-- 95 V-E3: the interrupt of an error. -/
theorem test_irq : ({ idle with errIe := true, err := true, st := .aborted } : State).irq = true ∧
    ({ idle with doneIe := true, err := true, st := .aborted } : State).irq = false := by decide

/-! ### The sequencer -/

/-- 95 V-S1, its last step: the acknowledgment of the last block. -/
theorem test_last_ack :
    ((answer (step { flashing .awaitAck 1#16 80 with rxq := [0x56#8] })).map fun t =>
      (t.blkIdx, t.progress, t.lastAck.word, t.statusWord)) = some (2#16, 160#16, 0x156#32, 0x0000070A#32) := by decide
/-- 95 V-S5: MAX_RETRY = 0, rejected by `'v'`. -/
theorem test_first_rejection_ends :
    ((answer (step { flashing .awaitAck 0#16 80 with maxRetry := 0#8, rxq := [0x76#8] })).map fun t =>
      (t.st, t.lastAck.word)) = some (.nacked, 0x176#32) ∧
    ((answer (step { flashing .nacked 0#16 80 with maxRetry := 0#8 })).map fun t => (t.errCode.code, t.statusWord)) =
      some (6#8, 0x00000804#32) := by decide
/-- 95 V-S4: the timeout mark; V-S13: the retry flushes what was received. -/
theorem test_timeout_and_flush :
    ((answer (step { flashing .awaitAck 0#16 80 with schedule := [.timeout] })).map fun t => (t.st, t.lastAck.word)) =
      some (.nacked, 0x200#32) ∧
    ((answer (step { flashing .nacked 0#16 80 with rxq := [0x56#8] })).map fun t => (t.st, t.rxq, t.attempt, t.txpos)) =
      some (.sending, [], 1#8, 0) := by decide
/-- 95 V-S11: a FIFO of two takes no third byte. -/
theorem test_overflow :
    ((answer (step { flashing .sending 0#16 5 with rxq := [0x11#8, 0x22#8], schedule := [.device 0x33#8] })).map fun t =>
      (t.errCode.code, t.errIndex, t.portOpen)) = some (7#8, 0#16, false) := by decide
/-- 95 V-R2: reset while SENDING. -/
theorem test_reset_while_sending :
    ((answer (step { flashing .sending 1#16 5 with doneIe := true, schedule := [.reset] })).map fun t =>
      (t.statusWord, t.ctrlWord, t.base, t.maxRetry)) = some (0#32, 0#32, 0x1000#16, 3#8) := by decide

/-! ### Witnesses: a concrete state and operands that meet the hypotheses of each obligation -/

theorem inv_idle : idle.Inv := by constructor <;> first | decide | nofun
theorem inv_withLens : (withLens 0x3000#16 15360#16).Inv ∧ (withLens 1#16 16#16).Inv := by
  constructor <;> constructor <;> first | decide | nofun
theorem inv_packing : (packing 0 false).Inv ∧ (packing 1 false).Inv ∧ (packing 1 true).Inv := by
  refine ⟨?_, ?_, ?_⟩ <;> constructor <;> first | decide | (intro _; constructor <;> decide) | nofun
theorem inv_encrypting : (encrypting 0 .encrypt).Inv ∧ (encrypting 1 .generate).Inv := by
  refine ⟨?_, ?_⟩ <;> constructor <;> first | decide | (intro _; constructor <;> decide) | nofun
theorem inv_flashing :
    (flashing .connected 0#16 0).Inv ∧ (flashing .sending 1#16 79).Inv ∧ (flashing .awaitAck 0#16 80).Inv ∧
    (flashing .awaitAck 1#16 80).Inv ∧ (flashing .nacked 1#16 80).Inv := by
  refine ⟨?_, ?_, ?_, ?_, ?_⟩ <;> constructor <;> first | decide | (intro _; constructor <;> decide) | nofun
/-- A waiting byte in AWAIT_ACK, and a FLASH of nothing. -/
theorem inv_waiting_byte :
    ({ flashing .awaitAck 0#16 80 with rxq := [0x56#8] } : State).Inv ∧
    ({ flashing .awaitAck 1#16 80 with rxq := [0x56#8] } : State).Inv ∧
    ({ flashing .connected 0#16 0 with artLen := 0#16, nblk := 0 } : State).Inv := by
  refine ⟨?_, ?_, ?_⟩ <;> constructor <;> first | decide | (intro _; constructor <;> decide) | nofun

theorem witness_DecodeOfEncode : (Instr.cksum 65535).wf = true ∧ Instr.abort.wf = true := by decide
theorem witness_DecodingIsTotalOnOpcode : ∀ i : Instr, i.opcode ≠ (0x00000005#32).extractLsb' 0 8 := by
  intro i; cases i <;> simp only [Instr.opcode] <;> decide
theorem witness_StepRunsTheCommandWritten :
    Issues { idle with schedule := [wr .cmd 0x13#32] } 0x13#32 [] ∧ decodeWord 0x13#32 = .ok (.cksum 0) ∧
    (Instr.cksum 0).wf = true := ⟨rfl, by decide, by decide⟩
theorem witness_ReservedOpcodeIsBadCmdOrDropped :
    Issues { idle with schedule := [wr .cmd 0x05#32] } 0x05#32 [] ∧ idle.busy = false ∧
    Issues { packing 0 true with schedule := [wr .cmd 0x05#32] } 0x05#32 [] ∧ (packing 0 true).busy = true ∧
    ∀ i : Instr, i.opcode ≠ (0x05#32).extractLsb' 0 8 :=
  ⟨rfl, rfl, rfl, rfl, by intro i; cases i <;> simp only [Instr.opcode] <;> decide⟩
theorem witness_BusyCommandsAreDropped :
    Issues { packing 0 true with schedule := [wr .cmd 0x21#32] } 0x21#32 [] ∧ (packing 0 true).busy = true ∧
    (0x21#32).extractLsb' 0 8 = 0x21#8 ∧
    Issues { packing 0 true with schedule := [wr .cmd 0x20#32] } 0x20#32 [] ∧ (0x20#32).extractLsb' 0 8 ≠ 0x21#8 :=
  ⟨rfl, rfl, by decide, rfl, by decide⟩
theorem witness_NopCompletes : idle.busy = false ∧ (packing 0 true).busy = true := by decide
theorem witness_TestpatWritesThePattern :
    ∀ s ∈ [withLens 256#16 0#16, withLens 0x3000#16 0#16],
      s.busy = false ∧ s.img.wf = true ∧ 256 ≤ s.imgLen.toNat ∧ s.imgLen.toNat ≤ 0x3000 := by decide
theorem witness_TestpatWritesThePattern_refused :
    (withLens 255#16 0#16).busy = false ∧ (withLens 255#16 0#16).imgLen.toNat < 256 ∧
    0x3000 < (withLens 0x3001#16 0#16).imgLen.toNat := by decide
/-- One frame at the highest address, and the largest region at the reset BASE. -/
theorem witness_PackIsAcceptedOrRefused :
    ∀ s ∈ [{ withLens 1#16 0#16 with base := 0xFFFF#16 }, withLens 0x3000#16 0#16],
      s.busy = false ∧ s.imgLen.toNat ≤ 0x3000 ∧ 0 < (s.imgLen.toNat + 63) / 64 ∧
      s.base.toNat + 64 * ((s.imgLen.toNat + 63) / 64 - 1) ≤ 0xFFFF := by decide
theorem witness_GenerateIsAcceptedOrRefused :
    ∀ s ∈ [{ withLens 64#16 0#16 with base := 0xFFC0#16 }, withLens 0x3000#16 0#16],
      s.busy = false ∧ s.imgLen.toNat ≤ 0x3000 ∧ 0 < (s.imgLen.toNat + 63) / 64 ∧
      s.base.toNat + 64 * ((s.imgLen.toNat + 63) / 64 - 1) ≤ 0xFFFF := by decide
theorem witness_PackIsAcceptedOrRefused_edges :
    idle.busy = false ∧ idle.imgLen = 0#16 ∧ 0x3000 < (withLens 0x3001#16 0#16).imgLen.toNat ∧
    0xFFFF < ({ withLens 65#16 0#16 with base := 0xFFC0#16 } : State).base.toNat +
      64 * (((withLens 65#16 0#16).imgLen.toNat + 63) / 64 - 1) := by decide
theorem witness_EncryptIsAcceptedOrRefused :
    ∀ s ∈ [withLens 0#16 16#16, withLens 0#16 15360#16],
      s.busy = false ∧ s.artLen.toNat ≤ 15360 ∧ s.artLen.toNat % 16 = 0 ∧ s.artLen ≠ 0#16 := by decide
theorem witness_EncryptIsAcceptedOrRefused_edges :
    15360 < (withLens 0#16 15361#16).artLen.toNat ∧
    ((withLens 0#16 15359#16).artLen.toNat ≤ 15360 ∧ (withLens 0#16 15359#16).artLen.toNat % 16 ≠ 0) ∧
    idle.artLen = 0#16 ∧ idle.busy = false := by decide
theorem witness_CksumRecomputesAndCompares :
    framed.busy = false ∧ framed.artLen.toNat ≤ 15360 ∧ 80 * (3 + 1) ≤ framed.artLen.toNat ∧
    80 * (191 + 1) ≤ (withLens 0#16 15360#16).artLen.toNat := by decide
theorem witness_CksumRecomputesAndCompares_refused :
    idle.busy = false ∧ 15360 < (withLens 0#16 15361#16).artLen.toNat ∧
    (withLens 0#16 79#16).artLen.toNat < 80 * (0 + 1) := by decide
theorem witness_FlashIsAcceptedOrRefused :
    ∀ s ∈ [idle, withLens 0#16 80#16, withLens 0#16 15360#16],
      s.busy = false ∧ s.artLen.toNat ≤ 15360 ∧ s.artLen.toNat % 80 = 0 ∧ s.linkOk = true := by decide
theorem witness_FlashIsAcceptedOrRefused_edges :
    15360 < (withLens 0#16 15440#16).artLen.toNat ∧ (withLens 0#16 79#16).artLen.toNat % 80 ≠ 0 ∧
    ({ withLens 0#16 80#16 with linkOk := false } : State).artLen.toNat % 80 = 0 ∧
    ({ withLens 0#16 80#16 with linkOk := false } : State).linkOk = false ∧ idle.busy = false := by decide
theorem witness_AbortCancels :
    idle.busy = false ∧ ((flashing .nacked 1#16 80).Inv ∧ (flashing .nacked 1#16 80).st.flashing = true) ∧
    ((packing 1 true).Inv ∧ (packing 1 true).st = .packing) ∧
    ((encrypting 1 .generate).Inv ∧ (encrypting 1 .generate).st = .encrypting) :=
  ⟨rfl, ⟨inv_flashing.2.2.2.2, rfl⟩, ⟨inv_packing.2.2, rfl⟩, ⟨inv_encrypting.2, rfl⟩⟩
theorem witness_CommandsLeaveTheRestAlone :
    idle.img.wf = true ∧ (∃ t, exec .testpat idle = .next t) ∧ ∃ t, exec .abort (packing 1 true) = .next t :=
  ⟨rfl, ⟨_, rfl⟩, ⟨_, rfl⟩⟩
/-- The last frame of the largest region at the highest BASE, and a frame of one byte. -/
theorem witness_FrameLayout :
    ∀ q ∈ [({ withLens 0x3000#16 0#16 with base := 0xD03F#16 }, 191), (withLens 65#16 0#16, 1)],
      q.1.imgLen.toNat ≤ 0x3000 ∧ 64 * q.2 < q.1.imgLen.toNat ∧ q.1.base.toNat + 64 * q.2 ≤ 0xFFFF := by decide
theorem witness_CksumIsTheReducedWordSum :
    (List.replicate 80 0xFF#8).length = 80 ∧ idle.cfg.cksumMode = .fold ∧
    ({ idle.cfg with cksumMode := .mod16 } : Params).cksumMode = .mod16 := by decide
theorem witness_CksumMatchesEveryPackedFrame :
    let f := frameOf idle.cfg 0x1000#16 80#16 [0x00#8]
    let s : State := { withLens 0#16 80#16 with art := (Memory.mk [] 0).writeBytes 0 f }
    s.busy = false ∧ s.artLen.toNat ≤ 15360 ∧ 80 * (0 + 1) ≤ s.artLen.toNat ∧ [0x00#8].length ≤ 64 ∧
      s.artBytes (80 * 0) 80 = frameOf s.cfg 0x1000#16 80#16 [0x00#8] := by decide +kernel
theorem witness_FoldIsTheOnesComplementSum : (1 ≤ 1 ∧ 1 < 2 ^ 22) ∧ 1 ≤ 2 ^ 22 - 1 ∧ 2 ^ 22 - 1 < 2 ^ 22 := by decide
theorem witness_FoldIsByteOrderIndependent :
    ∃ f : List Byte, f.length = 80 ∧ ∃ b ∈ f, b ≠ 0#8 := ⟨List.replicate 80 0x01#8, by decide, 0x01#8, by decide, by decide⟩
/-- Each clause: a frame that is not the last, the last of a PACK, the last of a GENERATE. -/
theorem witness_PackStepWritesOneFrame :
    ((packing 0 false).Inv ∧ (packing 0 false).st = .packing ∧ (packing 0 false).k + 1 < (packing 0 false).nfrm) ∧
    ((packing 1 false).Inv ∧ (packing 1 false).k + 1 = (packing 1 false).nfrm ∧ (packing 1 false).gen = false) ∧
    ((packing 1 true).Inv ∧ (packing 1 true).k + 1 = (packing 1 true).nfrm ∧ (packing 1 true).gen = true) :=
  ⟨⟨inv_packing.1, by decide⟩, ⟨inv_packing.2.1, by decide⟩, inv_packing.2.2, by decide⟩
theorem witness_PackBuildsEveryFrame :
    ∀ s ∈ [withLens 1#16 16#16, withLens 0x3000#16 15360#16],
      s.Inv ∧ s.busy = false ∧ s.schedule = [] ∧ s.imgLen.toNat ≤ 0x3000 ∧ 0 < (s.imgLen.toNat + 63) / 64 ∧
      s.base.toNat + 64 * ((s.imgLen.toNat + 63) / 64 - 1) ≤ 0xFFFF := by
  intro s h
  simp only [List.mem_cons, List.not_mem_nil, or_false] at h
  rcases h with rfl | rfl
  · exact ⟨inv_withLens.2, by decide⟩
  · exact ⟨inv_withLens.1, by decide⟩
theorem witness_GenerateLeavesTheEncryptedFrames :
    ∃ s : State, s.Inv ∧ s.busy = false ∧ s.schedule = [] ∧ s.imgLen.toNat ≤ 0x3000 ∧ 0 < (s.imgLen.toNat + 63) / 64 ∧
      s.base.toNat + 64 * ((s.imgLen.toNat + 63) / 64 - 1) ≤ 0xFFFF :=
  ⟨withLens 0x3000#16 15360#16, inv_withLens.1, by decide⟩
theorem witness_StepKeepsThePackedFrames :
    (packing 0 true).Inv ∧ (packing 0 true).PackedPrefix ∧ ∃ t, step (packing 0 true) = .next t :=
  ⟨by constructor <;> first | decide | (intro _; constructor <;> decide) | nofun,
    fun _ m hm => absurd hm (Nat.not_lt_zero m), ⟨_, rfl⟩⟩
theorem witness_EncryptStepChainsOneBlock :
    ((encrypting 0 .encrypt).Inv ∧ (encrypting 0 .encrypt).st = .encrypting ∧
      (encrypting 0 .encrypt).j + 1 < (encrypting 0 .encrypt).nblk16) ∧
    ((encrypting 1 .generate).Inv ∧ (encrypting 1 .generate).j + 1 = (encrypting 1 .generate).nblk16) :=
  ⟨⟨inv_encrypting.1, by decide⟩, inv_encrypting.2, by decide⟩
theorem witness_EncryptLeavesTheCbcCiphertext :
    ∀ s ∈ [withLens 1#16 16#16, withLens 0x3000#16 15360#16],
      s.Inv ∧ s.busy = false ∧ s.schedule = [] ∧ s.artLen.toNat ≤ 15360 ∧ s.artLen.toNat % 16 = 0 ∧ s.artLen ≠ 0#16 := by
  intro s h
  simp only [List.mem_cons, List.not_mem_nil, or_false] at h
  rcases h with rfl | rfl
  · exact ⟨inv_withLens.2, by decide⟩
  · exact ⟨inv_withLens.1, by decide⟩
theorem witness_ConnectedStep :
    (({ flashing .connected 0#16 0 with artLen := 0#16, nblk := 0 } : State).Inv ∧
      ({ flashing .connected 0#16 0 with artLen := 0#16, nblk := 0 } : State).st = .connected) ∧
    ((flashing .connected 0#16 0).Inv ∧ 0 < (flashing .connected 0#16 0).nblk) :=
  ⟨⟨inv_waiting_byte.2.2, rfl⟩, inv_flashing.1, by decide⟩
theorem witness_SendingStepSendsOneByte :
    (flashing .sending 1#16 79).st = .sending ∧ (flashing .sending 1#16 79).txpos + 1 = 80 ∧
    (flashing .sending 0#16 0).st = .sending := by decide
theorem witness_AckByteAdvances :
    (({ flashing .awaitAck 0#16 80 with rxq := [0x56#8] } : State).Inv ∧
      (flashing .awaitAck 0#16 80).blkIdx.toNat + 1 < (flashing .awaitAck 0#16 80).nblk) ∧
    (({ flashing .awaitAck 1#16 80 with rxq := [0x56#8] } : State).Inv ∧
      (flashing .awaitAck 1#16 80).blkIdx.toNat + 1 = (flashing .awaitAck 1#16 80).nblk) :=
  ⟨⟨inv_waiting_byte.1, by decide⟩, inv_waiting_byte.2.1, by decide⟩
theorem witness_OtherBytesRejectAndAnEmptyQueueWaits :
    (flashing .awaitAck 0#16 80).st = .awaitAck ∧ (flashing .awaitAck 0#16 80).rxq = [] ∧
    ({ flashing .awaitAck 0#16 80 with rxq := [0x57#8, 0x56#8] } : State).rxq = 0x57#8 :: [0x56#8] ∧ 0x57#8 ≠ 0x56#8 := by
  decide
theorem witness_NackedStepRetriesOrGivesUp :
    ((flashing .nacked 1#16 80).Inv ∧ (flashing .nacked 1#16 80).st = .nacked ∧
      (flashing .nacked 1#16 80).attempt.toNat < (flashing .nacked 1#16 80).maxRetry.toNat) ∧
    (({ flashing .nacked 1#16 80 with attempt := 3#8 } : State).Inv ∧
      ({ flashing .nacked 1#16 80 with attempt := 3#8 } : State).attempt = (flashing .nacked 1#16 80).maxRetry) :=
  ⟨⟨inv_flashing.2.2.2.2, by decide⟩,
    by constructor <;> first | decide | (intro _; constructor <;> decide) | nofun, by decide⟩
theorem witness_TimeoutOnlyOnAnEmptyWait :
    ({ flashing .awaitAck 0#16 80 with schedule := [.timeout] } : State).schedule = .timeout :: [] ∧
    (flashing .awaitAck 0#16 80).st = .awaitAck ∧ (flashing .awaitAck 0#16 80).rxq = [] ∧ idle.st ≠ .awaitAck := by
  decide
/-- One byte short of the depth, at the depth, and with the port closed. -/
theorem witness_DeviceBytesQueueOverflowOrVanish :
    (({ flashing .awaitAck 0#16 80 with rxq := [0x56#8] } : State).Inv ∧
      ({ flashing .awaitAck 0#16 80 with rxq := [0x56#8] } : State).rxq.length < idle.cfg.rxqDepth) ∧
    (({ flashing .awaitAck 0#16 80 with rxq := [0x56#8, 0x56#8] } : State).Inv ∧
      ({ flashing .awaitAck 0#16 80 with rxq := [0x56#8, 0x56#8] } : State).rxq.length = idle.cfg.rxqDepth) ∧
    (idle.Inv ∧ idle.portOpen = false) :=
  ⟨⟨inv_waiting_byte.1, by decide⟩,
    ⟨by constructor <;> first | decide | (intro _; constructor <;> decide) | nofun, by decide⟩, inv_idle, by decide⟩
theorem witness_LinkFaultEndsTheFlash :
    (flashing .sending 1#16 79).Inv ∧ (flashing .sending 1#16 79).portOpen = true := ⟨inv_flashing.2.1, by decide⟩
theorem witness_AcceptedFlashSendsTheArtifact :
    ∃ s : State, s.Inv ∧ s.busy = false ∧ s.linkOk = true ∧ 1 ≤ s.cfg.rxqDepth ∧ 1 ≤ 192 ∧ 192 ≤ 192 ∧
      s.artLen.toNat = 80 * 192 ∧ s.schedule = .engine :: ackedBlocks 192 :=
  ⟨{ withLens 0#16 15360#16 with schedule := .engine :: ackedBlocks 192 },
    by constructor <;> first | (dsimp only [withLens]; decide) | nofun, by decide, by decide, by decide, by decide, by decide,
    by decide, rfl⟩
theorem witness_FlashStepsAreBounded :
    ((flashing .sending 1#16 79).Inv ∧ (flashing .sending 1#16 79).st.flashing = true) ∧
    ((flashing .awaitAck 0#16 80).Inv ∧ (flashing .awaitAck 0#16 80).rxq = []) ∧
    ∃ t, step (flashing .sending 1#16 79) = .next t :=
  ⟨⟨inv_flashing.2.1, by decide⟩, ⟨inv_flashing.2.2.1, by decide⟩, _, rfl⟩
theorem witness_OnlySendingTransmits : ∃ t, step (flashing .sending 1#16 79) = .next t := ⟨_, rfl⟩
theorem witness_BlocksAreAcknowledgedInOrder :
    ({ flashing .awaitAck 0#16 80 with rxq := [0x56#8] } : State).Inv ∧
    ((answer (step { flashing .awaitAck 0#16 80 with rxq := [0x56#8] })).map fun t => (t.st.flashing, t.blkIdx)) =
      some (true, 1#16) := ⟨inv_waiting_byte.1, by decide⟩
theorem witness_FlashLeavesTheArtifact :
    (flashing .awaitAck 0#16 80).Inv ∧ (flashing .awaitAck 0#16 80).st.flashing = true ∧
    (∃ t, step (flashing .awaitAck 0#16 80) = .next t) ∧ ∀ rest, (flashing .awaitAck 0#16 80).schedule ≠ .reset :: rest :=
  ⟨inv_flashing.2.2.1, by decide, ⟨_, rfl⟩, nofun⟩
/-- Both sides of the equivalence: a fault and its illegal access. -/
theorem witness_OnlyIllegalAccessesFault :
    (∃ f, step { idle with schedule := [.host (.write 0x4001#16 2 0#32)] } = .fault f) ∧
    ¬ ((2 = 1 ∨ 2 = 2 ∨ 2 = 4) ∧ (0x4001#16).toNat % 2 = 0 ∧ ((0x4001#16).toNat < 0x3C → 2 = 4)) := ⟨⟨_, rfl⟩, by decide⟩
/-- The last word of each window (at the first word, the other bound of each clause). -/
theorem witness_BufferReadsAreLittleEndian :
    idle.busy = false ∧
    ((0x3FFC#16).toNat % 4 = 0 ∧ 0x1000 ≤ (0x3FFC#16).toNat ∧ (0x3FFC#16).toNat < 0x4000) ∧
    ((0x7BFC#16).toNat % 4 = 0 ∧ 0x4000 ≤ (0x7BFC#16).toNat ∧ (0x7BFC#16).toNat < 0x7C00) ∧
    ((0x1000#16).toNat % 4 = 0 ∧ 0x1000 ≤ (0x1000#16).toNat) ∧ (0x4000#16).toNat % 4 = 0 ∧ 0x4000 ≤ (0x4000#16).toNat ∧
    ({ idle with schedule := [rdw 0x3FFC#16] } : State).schedule = .host (.read 0x3FFC#16 4) :: [] := by decide
/-- The last byte of each window. -/
theorem witness_BufferWritesAreLittleEndian :
    idle.busy = false ∧ idle.img.wf = true ∧ idle.art.wf = true ∧
    ((0x3FFF#16).toNat % 1 = 0 ∧ 0x1000 ≤ (0x3FFF#16).toNat ∧ (0x3FFF#16).toNat < 0x4000) ∧
    ((0x7BFF#16).toNat % 1 = 0 ∧ 0x4000 ≤ (0x7BFF#16).toNat ∧ (0x7BFF#16).toNat < 0x7C00) ∧
    ({ idle with schedule := [wrb 0x7BFF#16 0x01#8] } : State).schedule = .host (.write 0x7BFF#16 1 0x01#32) :: [] := by
  decide
theorem witness_BusyWritesAreDroppedWithWerr :
    (packing 0 true).busy = true ∧ idle.busy = false ∧ ((0x7BFE#16).toNat % 2 = 0 ∧ 0x1000 ≤ (0x7BFE#16).toNat ∧ (0x7BFE#16).toNat < 0x7C00) ∧
    (0x1C#16).toNat ∈ [0x10, 0x14, 0x18, 0x1C] ∧ (0x38#16).toNat ∈ [0x0C, 0x20, 0x24, 0x28, 0x2C, 0x30, 0x34, 0x38] := by
  decide
/-- The first and the last access of each unmapped range. -/
theorem witness_UnmappedAccessesHaveNoEffect :
    ∀ c ∈ [(0x003C#16, 4), (0x0FFF#16, 1), (0x7C00#16, 2), (0xFFFC#16, 4)],
      (c.2 = 1 ∨ c.2 = 2 ∨ c.2 = 4) ∧ c.1.toNat % c.2 = 0 ∧
      (0x3C ≤ c.1.toNat ∧ c.1.toNat < 0x1000 ∨ 0x7C00 ≤ c.1.toNat) := by
  decide
theorem witness_StatusWriteClearsFlags :
    ({ idle with schedule := [clr] } : State).schedule = .host (.write 0x08#16 4 0x2E#32) :: [] := rfl
/-- A register write in each of the five places. -/
theorem witness_RegisterWritesTakeEffect :
    idle.busy = false ∧ ∀ r ∈ [Reg.ctrl, .imgLen, .artLen, .base, .maxRetry],
      ({ idle with schedule := [wr r 0xFFFFFFFF#32] } : State).schedule =
        .host (.write (BitVec.ofNat 16 r.offset) 4 0xFFFFFFFF#32) :: [] := ⟨rfl, fun _ _ => rfl⟩
theorem witness_StatusReadShowsTheFlags :
    ({ idle with schedule := [waitRead] } : State).schedule = .host (.read 0x08#16 4) :: [] := by decide
theorem witness_RegisterReadsShowTheirFields :
    ∀ r ∈ [Reg.ctrl, .errcode, .imgLen, .artLen, .base, .maxRetry, .blkIdx, .progress, .attempt, .errIndex, .errOffset,
        .cksum, .lastAck],
      ({ idle with schedule := [rd r] } : State).schedule = .host (.read (BitVec.ofNat 16 r.offset) 4) :: [] :=
  fun _ _ => rfl
/-- The step that ends a GENERATE's packing phase. -/
theorem witness_ResultsShowOnlyFromTheCompletingStep :
    (packing 1 true).Inv ∧
    (answer (step (packing 1 true))).map State.busy = some true := ⟨inv_packing.2.2, by decide +kernel⟩
theorem witness_HostCannotDisturbARunningCommand :
    (packing 0 true).busy = true ∧ (∃ t, hostAccess (.write 0x4#16 4 0x10#32) (packing 0 true) = .next t) ∧
    (0x10#32).extractLsb' 0 8 ≠ 0x21#8 := ⟨rfl, ⟨_, rfl⟩, by decide⟩
/-- Each way a pending flag is cleared: reset, a command, a write of 1. -/
theorem witness_PendingFlagsAreClearedOnlyByHostOrReset :
    ∀ e ∈ [Event.reset, wr .cmd 0x10#32, wr .status 0x2E#32],
      let s : State := { withLens 1#16 0#16 with done := true, st := .done, schedule := [e] }
      s.done = true ∧ (answer (step s)).map (fun t => t.done) = some false := by decide
theorem witness_OnlyHostOrResetLowersIrq :
    let s : State := { idle with done := true, doneIe := true, st := .done, schedule := [clr] }
    s.irq = true ∧ (answer (step s)).map (fun t => t.irq) = some false := by decide
theorem witness_IdleEngineStays :
    idle.Inv ∧ idle.busy = false ∧ (∃ t, step idle = .next t) ∧
    (∀ v rest, idle.schedule ≠ .host (.write 0x0004#16 4 v) :: rest) ∧ (∀ rest, idle.schedule ≠ .reset :: rest) ∧
    ∀ op rest, idle.schedule ≠ .host op :: rest :=
  ⟨inv_idle, rfl, ⟨_, rfl⟩, nofun, nofun, nofun⟩
theorem witness_ResetEventResetsEverything :
    ({ flashing .sending 1#16 5 with schedule := [.reset] } : State).schedule = .reset :: [] := by decide
theorem witness_ConfigurationNeverChanges : ∃ t, step { idle with schedule := [.reset] } = .next t := ⟨_, rfl⟩
theorem witness_StepKeepsTheInvariant : ∃ t, step (packing 1 true) = .next t := ⟨_, rfl⟩

end Sys2Proof.Tests
end

section
/-! PROOFS. The host's accesses of the registers (10_state.md R22 to R36): one step rule for a read and one for a write, what a
read register shows, and the obligations on register reads and writes. -/

namespace Sys2Proof.Machine

/-! ### The step of a register access -/

/-- The host's read of a register, next in the schedule (20 R61, R69). -/
theorem step_of_regRead {s : State} {r : Reg} {rest : List Event}
    (h : s.schedule = .host (.read (BitVec.ofNat 16 r.offset) 4) :: rest) :
    step s = .next { s with
      schedule := rest, busRead := some (s.readReg r (Config.anyWord s.draws)), draws := s.draws + 1 } := by
  rw [step_of_event h]
  simp only [runEvent, hostAccess, hostRead, target_reg]
  cases r <;> rfl

/-- The host's write of a register, next in the schedule (20 R61). -/
theorem step_of_regWrite {s : State} {r : Reg} {v : Word} {rest : List Event}
    (h : s.schedule = .host (.write (BitVec.ofNat 16 r.offset) 4 v) :: rest) :
    step s = writeReg r v (s.withSchedule rest) := by
  rw [step_of_event h]
  simp only [runEvent, hostAccess, hostWrite, target_reg]

/-- While not busy a write that a busy engine would drop takes effect (20 R68). -/
theorem State.unlessBusy_of_idle {s : State} (h : s.busy = false) (s' : State) : s.unlessBusy s' = s' := by
  simp [State.unlessBusy, h]

/-! ### The defined bits of a register read -/

/-- A bit of a register that is no free bit reads its value (10 R46). -/
theorem readReg_getLsbD {r : Reg} {i : Nat} (h : r.anyMask.getLsbD i = false) (s : State) (any : Word) :
    (s.readReg r any).getLsbD i = (s.regValue r).getLsbD i := by
  simp [State.readReg, h]

/-- A field of a register that holds no free bit reads its value (10 R46). -/
theorem readReg_extractLsb' {r : Reg} {lo n : Nat} (h : r.anyMask.extractLsb' lo n = 0#n) (s : State) (any : Word) :
    (s.readReg r any).extractLsb' lo n = (s.regValue r).extractLsb' lo n := by
  rw [State.readReg, BitVec.extractLsb'_or, BitVec.extractLsb'_and, h, BitVec.and_zero, BitVec.or_zero]

/-- A register without free bits reads its value (10 R31 to R36). -/
theorem readReg_of_anyMask_eq_zero {r : Reg} (h : r.anyMask = 0#32) (s : State) (any : Word) :
    s.readReg r any = s.regValue r := by
  rw [State.readReg, h, BitVec.and_zero, BitVec.or_zero]

/-- A zero-extended field below the free bits reads as the field (10 R26 to R30). -/
theorem readReg_lowField {s : State} {r : Reg} {n : Nat} {x : BitVec n} (hv : s.regValue r = x.setWidth 32) (hn : n ≤ 32)
    (hm : r.anyMask.extractLsb' 0 n = 0#n) (any : Word) : (s.readReg r any).extractLsb' 0 n = x := by
  rw [readReg_extractLsb' hm, hv]
  ext i hi
  simp [hi, show i < 32 by omega]

/-- A zero-extended field whose upper bits read 0 reads as its number (10 R31 to R35). -/
theorem readReg_zeroExtended {s : State} {r : Reg} {n : Nat} {x : BitVec n} (hv : s.regValue r = x.setWidth 32) (hn : n ≤ 32)
    (hm : r.anyMask = 0#32) (any : Word) : (s.readReg r any).toNat = x.toNat := by
  rw [readReg_of_anyMask_eq_zero hm, hv, BitVec.toNat_setWidth_of_le hn]

/-- The three enables in their bits of `CTRL` (10 R22). -/
theorem ctrlWord_getLsbD (s : State) :
    s.ctrlWord.getLsbD 0 = s.doneIe ∧ s.ctrlWord.getLsbD 1 = s.errIe ∧ s.ctrlWord.getLsbD 2 = s.progIe := by
  simp only [State.ctrlWord, BitVec.getLsbD_append]
  simp

/-- The flags in their bits of `STATUS` (10 R24). -/
theorem statusWord_getLsbD (s : State) :
    s.statusWord.getLsbD 0 = s.busy ∧ s.statusWord.getLsbD 1 = s.done ∧ s.statusWord.getLsbD 2 = s.err ∧
    s.statusWord.getLsbD 3 = s.prog ∧ s.statusWord.getLsbD 4 = s.matched ∧ s.statusWord.getLsbD 5 = s.werr ∧
    s.statusWord.getLsbD 6 = s.portOpen := by
  simp only [State.statusWord, BitVec.getLsbD_append]
  simp

/-- `STATUS.ENG_STATE` is the code of the engine state (10 R24, R40). -/
theorem statusWord_engState (s : State) : s.statusWord.extractLsb' 8 4 = s.st.code := by
  apply BitVec.eq_of_getLsbD_eq
  intro i hi
  simp only [State.statusWord, BitVec.getLsbD_extractLsb', BitVec.getLsbD_append]
  interval_cases i <;> simp

/-- `LAST_ACK` as a number: `VALID` is bit 8, `TIMEOUT` bit 9 (10 R33). -/
theorem lastAck_word_toNat (a : LastAck) :
    a.word.toNat = match a with
      | .none       => 0
      | .received b => 0x100 + b.toNat
      | .timedOut   => 0x200 := by
  cases a with
  | none       => rfl
  | timedOut   => rfl
  | received b =>
    have hb := b.isLt
    simp only [LastAck.word, BitVec.toNat_append, BitVec.toNat_ofNat]
    exact (Nat.shiftLeft_add_eq_or_of_lt hb 1).symm

/-- The two halves of `CKSUM` (10 R36). -/
theorem cksum_regValue (s : State) :
    (s.regValue .cksum).extractLsb' 0 16 = s.cksumCalc ∧ (s.regValue .cksum).extractLsb' 16 16 = s.cksumStored := by
  have bit (i : Nat) : (s.regValue .cksum).getLsbD i =
      if i < 16 then s.cksumCalc.getLsbD i else s.cksumStored.getLsbD (i - 16) := by
    simp only [State.regValue, BitVec.getLsbD_append]
  constructor <;>
    · apply BitVec.eq_of_getLsbD_eq
      intro i hi
      simp [bit, hi]

/-! ### The obligations on register accesses -/

/-- Settles O48: one read rule for every register, then its fields from the value and the free bits of that register. -/
theorem registerReadsShowTheirFields : Obligations.RegisterReadsShowTheirFields := by
  unfold Obligations.RegisterReadsShowTheirFields
  intro s r rest h
  refine ⟨_, step_of_regRead h, ?ctrl, ?errcode, ?imgLen, ?artLen, ?base, ?maxRetry, ?blkIdx, ?progress, ?attempt,
    ?errIndex, ?errOffset, ?cksum, ?lastAck⟩ <;> rintro rfl
  case ctrl =>
    iterate 3 rw [readReg_getLsbD (by decide)]
    exact ctrlWord_getLsbD s
  case cksum =>
    rw [readReg_of_anyMask_eq_zero rfl]
    exact cksum_regValue s
  case lastAck =>
    rw [readReg_of_anyMask_eq_zero rfl]
    exact lastAck_word_toNat s.lastAck
  case errcode | imgLen | base | maxRetry => exact readReg_lowField rfl (by decide) (by decide) _
  case artLen => exact readReg_lowField (x := s.shownArtLen) rfl (by decide) (by decide) _
  case blkIdx | progress | attempt | errIndex | errOffset => exact readReg_zeroExtended rfl (by decide) rfl _

/-- Settles O47, from the bits of `STATUS`, none of them a free bit. -/
theorem statusReadShowsTheFlags : Obligations.StatusReadShowsTheFlags := by
  unfold Obligations.StatusReadShowsTheFlags
  intro s rest h
  refine ⟨_, step_of_regRead (r := .status) h, ?_⟩
  iterate 7 rw [readReg_getLsbD (by decide)]
  rw [readReg_extractLsb' (by decide)]
  obtain ⟨busy, done, err, prog, matched, werr, port⟩ := statusWord_getLsbD s
  exact ⟨busy, done, err, prog, matched, werr, port, statusWord_engState s⟩

/-- Settles O45: a flag is kept exactly where its bit is written as 0. -/
theorem statusWriteClearsFlags : Obligations.StatusWriteClearsFlags := by
  unfold Obligations.StatusWriteClearsFlags
  intro s v rest h
  have cleared (flag bit : Bool) : (flag && !bit) = if bit then false else flag := by cases bit <;> simp
  rw [step_of_regWrite (r := .status) h]
  simp only [writeReg, State.writeStatus, cleared]
  rfl

/-- Settles O46: `CTRL` takes its bits always, the four others while not busy. -/
theorem registerWritesTakeEffect : Obligations.RegisterWritesTakeEffect := by
  unfold Obligations.RegisterWritesTakeEffect
  intro s v rest
  refine ⟨fun h => step_of_regWrite (r := .ctrl) h, fun hb => ?_⟩
  have taken (t : State) : (s.withSchedule rest).unlessBusy t = t := State.unlessBusy_of_idle (s := s.withSchedule rest) hb t
  refine ⟨fun h => ?_, fun h => ?_, fun h => ?_, fun h => ?_⟩
  · rw [step_of_regWrite (r := .imgLen) h, writeReg, taken]; rfl
  · rw [step_of_regWrite (r := .artLen) h, writeReg, taken]; rfl
  · rw [step_of_regWrite (r := .base) h, writeReg, taken]; rfl
  · rw [step_of_regWrite (r := .maxRetry) h, writeReg, taken]; rfl

end Sys2Proof.Machine
end

section
/-! PROOFS. What the steps of the agents other than the host keep, but for a reset: the configuration (10 R20), the interrupt
enables (10 R22) and every pending flag (60 R209); and the obligations on irq and the configuration that follow. -/

namespace Sys2Proof.Machine

/-! ### The relation -/

/-- The fields irq is a function of, and the configuration. -/
def State.irqView (s : State) : Params × (Bool × Bool × Bool) × (Bool × Bool × Bool) :=
  (s.cfg, (s.doneIe, s.errIe, s.progIe), (s.done, s.err, s.prog))

/-- From `s` to `t` the configuration and the interrupt enables stay and no pending DONE, ERR or PROG is cleared. -/
structure State.KeepsPending (s t : State) : Prop where
  cfg    : t.cfg = s.cfg
  doneIe : t.doneIe = s.doneIe
  errIe  : t.errIe = s.errIe
  progIe : t.progIe = s.progIe
  done   : s.done = true → t.done = true
  err    : s.err = true → t.err = true
  prog   : s.prog = true → t.prog = true

/-- The relation looks at its first state's view alone. -/
theorem State.KeepsPending.congr_left {s s' t : State} (h : s'.KeepsPending t) (e : s'.irqView = s.irqView) :
    s.KeepsPending t := by
  simp only [State.irqView, Prod.mk.injEq] at e
  obtain ⟨cfg, ⟨doneIe, errIe, progIe⟩, done, err, prog⟩ := e
  exact ⟨h.cfg.trans cfg, h.doneIe.trans doneIe, h.errIe.trans errIe, h.progIe.trans progIe,
    fun hd => h.done (done.trans hd), fun he => h.err (err.trans he), fun hp => h.prog (prog.trans hp)⟩

/-- A step that leaves the view clears nothing. -/
theorem keepsPending_of_irqView_eq {s t : State} (e : t.irqView = s.irqView) : s.KeepsPending t :=
  State.KeepsPending.congr_left ⟨rfl, rfl, rfl, rfl, id, id, id⟩ e

/-- The success completion sets DONE and clears nothing (60 R203). -/
theorem keepsPending_complete (s : State) : s.KeepsPending s.complete := ⟨rfl, rfl, rfl, rfl, fun _ => rfl, id, id⟩

/-- The error completion sets ERR and clears nothing (60 R204). -/
theorem keepsPending_raiseError (s : State) (c : ErrorCode) : s.KeepsPending (s.raiseError c) :=
  ⟨rfl, rfl, rfl, rfl, id, fun _ => rfl, id⟩

/-- irq is high exactly when a flag is pending with its enable set (10 R45). -/
theorem irq_iff (s : State) : s.irq = true ↔
    (s.done = true ∧ s.doneIe = true) ∨ (s.err = true ∧ s.errIe = true) ∨ (s.prog = true ∧ s.progIe = true) := by
  simp only [State.irq, Bool.or_eq_true, Bool.and_eq_true, or_assoc]

/-- Where no pending flag is cleared and the enables stay, irq does not fall (10 R45). -/
theorem State.KeepsPending.irq {s t : State} (h : s.KeepsPending t) (hs : s.irq = true) : t.irq = true := by
  rw [irq_iff] at hs ⊢
  rw [h.doneIe, h.errIe, h.progIe]
  exact hs.imp (.imp_left h.done) (.imp (.imp_left h.err) (.imp_left h.prog))

/-! ### The engine's steps -/

/-- The PACK step clears no pending flag (41 R107). -/
theorem keepsPending_packStep (s : State) : s.KeepsPending (packStep s) := by
  rcases packStep_cases s with ⟨-, h⟩ | ⟨-, -, h⟩ | ⟨-, -, h⟩ <;> rw [h]
  · exact keepsPending_of_irqView_eq rfl
  · exact (keepsPending_complete _).congr_left rfl
  · exact keepsPending_of_irqView_eq rfl

/-- The ENCRYPT step clears no pending flag (42 R133). The view is compared by `simp`: `rfl` would unfold the sixteen byte writes. -/
theorem keepsPending_encryptStep (s : State) : s.KeepsPending (encryptStep s) := by
  unfold encryptStep encryptStepWith
  dsimp only
  split
  · exact (keepsPending_complete _).congr_left rfl
  · exact keepsPending_of_irqView_eq (by simp only [State.irqView])

/-- The CONNECTED step clears no pending flag (44 R173). -/
theorem keepsPending_connectedStep (s : State) : s.KeepsPending (connectedStep s) := by
  unfold connectedStep
  split
  · exact (keepsPending_complete _).congr_left rfl
  · exact keepsPending_of_irqView_eq rfl

/-- The SENDING step clears no pending flag (44 R174). -/
theorem keepsPending_sendingStep (s : State) : s.KeepsPending (sendingStep s) := by
  unfold sendingStep
  dsimp only
  split <;> exact keepsPending_of_irqView_eq rfl

/-- An accepted block sets PROG and clears no pending flag (44 R175). -/
theorem keepsPending_ackedStep (b : Byte) (q : List Byte) (s : State) : s.KeepsPending (ackedStep b q s) := by
  unfold ackedStep
  dsimp only
  split
  · exact ⟨rfl, rfl, rfl, rfl, fun _ => rfl, id, fun _ => rfl⟩
  · exact ⟨rfl, rfl, rfl, rfl, id, id, fun _ => rfl⟩

/-- The NACKED step clears no pending flag (44 R179). -/
theorem keepsPending_nackedStep (s : State) : s.KeepsPending (nackedStep s) := by
  unfold nackedStep
  split
  · exact keepsPending_of_irqView_eq rfl
  · exact keepsPending_raiseError s .nack

/-- No turn of the engine clears a pending flag (60 R209). -/
theorem keepsPending_engineTurn (s : State) : s.KeepsPending (engineTurn s) := by
  rcases engineTurn_cases s with ⟨-, h⟩ | ⟨-, h⟩ | ⟨-, h⟩ | ⟨-, h⟩ | ⟨q, -, -, h⟩ | ⟨b, q, -, -, -, h⟩ | ⟨-, -, h⟩ | ⟨-, h⟩ |
    ⟨-, h⟩ <;> rw [h]
  · exact keepsPending_packStep s
  · exact keepsPending_encryptStep s
  · exact keepsPending_connectedStep s
  · exact keepsPending_sendingStep s
  · exact keepsPending_ackedStep _ q s
  · exact keepsPending_of_irqView_eq rfl
  · exact keepsPending_of_irqView_eq rfl
  · exact keepsPending_nackedStep s
  · exact keepsPending_of_irqView_eq rfl

/-! ### The link's inputs -/

/-- A byte of the device clears no pending flag (43 R155 to R157). -/
theorem keepsPending_deviceByte (b : Byte) (s : State) : s.KeepsPending (deviceByte b s) := by
  unfold deviceByte
  split
  · split
    · exact keepsPending_of_irqView_eq rfl
    · exact keepsPending_raiseError s .io
  · exact keepsPending_of_irqView_eq rfl

/-- A link fault clears no pending flag (43 R158). -/
theorem keepsPending_linkFails (s : State) : s.KeepsPending (linkFails s) := by
  unfold linkFails
  split
  · exact keepsPending_raiseError s .io
  · exact keepsPending_of_irqView_eq rfl

/-- The timeout clears no pending flag (44 R180). -/
theorem keepsPending_timeoutFires (s : State) : s.KeepsPending (timeoutFires s) := by
  unfold timeoutFires
  split <;> exact keepsPending_of_irqView_eq rfl

/-! ### The step -/

/-- An event that is no host write and no reset clears no pending flag (60 R209). -/
theorem runEvent_keepsPending {e : Event} {s t : State} (h : runEvent e s = .next t) :
    e = .reset ∨ (∃ a w v, e = .host (.write a w v)) ∨ s.KeepsPending t := by
  cases e with
  | reset          => exact .inl rfl
  | engine         => cases h; exact .inr (.inr (keepsPending_engineTurn s))
  | device b       => cases h; exact .inr (.inr (keepsPending_deviceByte b s))
  | linkFault      => cases h; exact .inr (.inr (keepsPending_linkFails s))
  | linkLevel ok   => cases h; exact .inr (.inr (keepsPending_of_irqView_eq rfl))
  | timeout        => cases h; exact .inr (.inr (keepsPending_timeoutFires s))
  | host op        =>
    rcases hostAccess_cases h with ⟨v, rfl⟩ | ⟨a, w, v, rfl, -⟩
    · exact .inr (.inr (keepsPending_of_irqView_eq rfl))
    · exact .inr (.inl ⟨a, w, v, rfl⟩)

/-- A step with no host write and no reset next in the schedule clears no pending flag (60 R209). -/
theorem step_keepsPending {s t : State} (h : step s = .next t) :
    (∃ rest, s.schedule = .reset :: rest) ∨ (∃ a w v rest, s.schedule = .host (.write a w v) :: rest) ∨
    s.KeepsPending t := by
  rcases step_cases h with ⟨-, rfl⟩ | ⟨e, rest, hs, hrun⟩
  · exact .inr (.inr (keepsPending_engineTurn s))
  · rcases runEvent_keepsPending hrun with rfl | ⟨a, w, v, rfl⟩ | hk
    · exact .inl ⟨rest, hs⟩
    · exact .inr (.inl ⟨a, w, v, rest, hs⟩)
    · exact .inr (.inr (hk.congr_left rfl))

/-! ### The configuration -/

/-- An accepted command leaves the configuration (10 R20). -/
theorem State.Accepted.cfg_eq {s t : State} (h : s.Accepted t) : t.cfg = s.cfg := by
  rcases h with ⟨c, -, rfl⟩ | rfl | rfl | rfl | ⟨sum, stored, eq, rfl⟩ | ⟨g, -, -, -, rfl⟩ | ⟨-, -, -, rfl⟩ |
    ⟨-, -, -, rfl⟩ <;> rfl

/-- An ABORT leaves the configuration (10 R20). -/
theorem cancel_cfg (s : State) : (cancel s).cfg = s.cfg := by
  unfold cancel
  dsimp only
  split <;> rfl

/-- A command word leaves the configuration (10 R20). -/
theorem issueWord_cfg {v : Word} {s t : State} (h : issueWord v s = .next t) : t.cfg = s.cfg := by
  rcases issueWord_cases h with ⟨-, -, rfl⟩ | ⟨-, -, rfl⟩ | ⟨-, rfl⟩ | ⟨-, -, ha⟩
  · rfl
  · exact cancel_cfg s
  · rfl
  · exact ha.cfg_eq

/-- A buffer write leaves the configuration (10 R20). -/
theorem storeBuf_cfg (s : State) (b : Buf) (off : Nat) (bs : List Byte) : (s.storeBuf b off bs).cfg = s.cfg := by
  cases b <;> rfl

/-- A host access leaves the configuration (10 R20). -/
theorem hostAccess_cfg {op : HostOp} {s t : State} (h : hostAccess op s = .next t) : t.cfg = s.cfg := by
  rcases hostAccess_cases h with ⟨v, rfl⟩ | ⟨a, w, v, -, ⟨-, hc⟩ | ⟨-, rfl⟩ | ⟨-, rfl⟩ | ⟨-, rfl⟩ |
    ⟨-, rfl | rfl | rfl | rfl⟩ | ⟨-, b, off, -, rfl⟩ | rfl⟩
  exacts [rfl, issueWord_cfg hc, rfl, rfl, rfl, rfl, rfl, rfl, rfl, storeBuf_cfg s b off _, rfl]

/-! ### The obligations on irq and the configuration -/

/-- Settles O52: a step with no host write and no reset next keeps the enables and the pending flags, so irq does not fall. -/
theorem onlyHostOrResetLowersIrq : Obligations.OnlyHostOrResetLowersIrq := by
  unfold Obligations.OnlyHostOrResetLowersIrq
  refine ⟨rfl, irq_iff, fun s t h hs ht => ?_⟩
  rcases step_keepsPending h with ⟨rest, hr⟩ | ⟨a, w, v, rest, hw⟩ | hk
  · exact ⟨rest, .inl hr⟩
  · exact ⟨rest, .inr ⟨a, w, v, hw⟩⟩
  · exact absurd (hk.irq hs) (by simp [ht])

/-- Settles O56: a reset and a host write keep the configuration too. -/
theorem configurationNeverChanges : Obligations.ConfigurationNeverChanges := by
  unfold Obligations.ConfigurationNeverChanges
  intro s t h
  rcases step_cases h with ⟨-, rfl⟩ | ⟨e, rest, -, hrun⟩
  · exact (keepsPending_engineTurn s).cfg
  · rw [← State.withSchedule_cfg (s := s) rest]
    rcases runEvent_keepsPending hrun with rfl | ⟨a, w, v, rfl⟩ | hk
    · cases hrun; rfl
    · exact hostAccess_cfg (op := .write a w v) hrun
    · exact hk.cfg

end Sys2Proof.Machine
end

section
/-! PROOFS. The host's accesses of the address space (20_memory.md R60 to R69): which accesses fault, the step rules of a buffer
access, what a busy engine drops, and the obligations on memory accesses. -/

namespace Sys2Proof.Machine

/-! ### The accesses that fault -/

/-- A 4-byte access at a multiple of 4 below 0x3C reaches a register: their offsets leave no gap (20 R60, R61). -/
theorem target_ne_none_of_registers {a : Nat} (ha : a % 4 = 0) (h : a < 0x3C) : target a 4 ≠ none := by
  obtain ⟨k, rfl⟩ : ∃ k, a = 4 * k := ⟨a / 4, by omega⟩
  have hk : k < 15 := by omega
  interval_cases k <;> decide

/-- The accesses without a target (20 R64): a wrong width, a misaligned address, or a narrow access of the registers. An aligned
access never crosses a region, every bound of which is a multiple of 4. -/
theorem target_eq_none_iff (a w : Nat) :
    target a w = none ↔ ¬ ((w = 1 ∨ w = 2 ∨ w = 4) ∧ a % w = 0 ∧ (a < 0x3C → w = 4)) := by
  constructor
  · rintro hn ⟨hw, ha, hreg⟩
    by_cases h1 : a < 0x3C
    · obtain rfl := hreg h1
      exact target_ne_none_of_registers ha h1 hn
    by_cases h2 : a < 0x1000
    · simp [target_unmapped hw ha (.inl ⟨by omega, h2⟩)] at hn
    by_cases h3 : a < 0x4000
    · simp [target_img hw ha (by omega) h3] at hn
    by_cases h4 : a < 0x7C00
    · simp [target_art hw ha (by omega) h4] at hn
    · simp [target_unmapped hw ha (.inr (by omega))] at hn
  · intro h
    unfold target
    split
    · next hc =>
      obtain ⟨hw, ha, -⟩ := hc
      have hreg : a < 0x3C ∧ w ≠ 4 := by
        by_contra hne
        exact h ⟨hw, ha, fun hlt => by_contra fun h4 => hne ⟨hlt, h4⟩⟩
      simp [regionOf, hreg]
    · rfl

/-- A host read faults exactly where it has no target (20 R64). -/
theorem hostRead_fault_iff (a : Half) (w : Nat) (s : State) :
    (∃ f, hostAccess (.read a w) s = .fault f) ↔ target a.toNat w = none := by
  simp only [hostAccess, hostRead]
  cases target a.toNat w <;> simp

/-- A host write faults exactly where it has no target (20 R64). -/
theorem hostWrite_fault_iff (a : Half) (w : Nat) (v : Word) (s : State) :
    (∃ f, hostAccess (.write a w v) s = .fault f) ↔ target a.toNat w = none := by
  simp only [hostAccess, hostWrite]
  cases target a.toNat w with
  | none   => simp
  | some t =>
    cases t with
    | reg r     => obtain ⟨u, hu⟩ := writeReg_next r v s; simp [hu]
    | buf b off => simp
    | unmapped  => simp

/-- A step faults exactly when a host access without a target is next in the schedule (20 R64). -/
theorem step_fault_iff (s : State) :
    (∃ f, step s = .fault f) ↔ ∃ (a : Half) (w : Nat) (rest : List Event),
      (s.schedule = .host (.read a w) :: rest ∨ ∃ v, s.schedule = .host (.write a w v) :: rest) ∧
      target a.toNat w = none := by
  cases hs : s.schedule with
  | nil         => simp [step_of_empty hs]
  | cons e rest =>
    rw [step_of_event hs]
    cases e with
    | host op =>
      cases op with
      | read a w    => simpa [runEvent] using hostRead_fault_iff a w (s.withSchedule rest)
      | write a w v => simpa [runEvent] using hostWrite_fault_iff a w v (s.withSchedule rest)
    | _ => simp [runEvent]

/-- No step is refused: no arm of the model raises a refusal. -/
theorem step_ne_refused (s : State) (r : Refusal) : step s ≠ .refused r := by
  cases hs : s.schedule with
  | nil         => simp [step_of_empty hs]
  | cons e rest =>
    rw [step_of_event hs]
    cases e with
    | host op =>
      rcases hostAccess_next_or_fault op (s.withSchedule rest) with ⟨t, h⟩ | ⟨a, w, h, -⟩ <;> simp [runEvent, h]
    | _ => simp [runEvent]

/-- Settles O40: a step faults where a host access has no target, and those accesses are the illegal ones. -/
theorem onlyIllegalAccessesFault : Obligations.OnlyIllegalAccessesFault := by
  unfold Obligations.OnlyIllegalAccessesFault
  intro s
  refine ⟨?_, step_ne_refused s⟩
  simp only [step_fault_iff, target_eq_none_iff]

/-! ### The bytes of a buffer access -/

/-- Byte `t` of a buffer's bytes from `off` on, 0 beyond them. -/
theorem bufBytes_getD (s : State) (b : Buf) (off w t : Nat) :
    (s.bufBytes b off w).getD t 0#8 = if t < w then s.bufAt b (off + t) else 0#8 := by
  by_cases h : t < w <;> simp [State.bufBytes, List.getD, h]

/-- Byte `t` of the bus value of up to four bytes is byte `t` of them, 0 above the width (20 R62). -/
theorem busValue_byte {l : List Byte} (hl : l.length ≤ 4) (t : Nat) :
    (busValue l.length (leValue l)).extractLsb' (8 * t) 8 = l.getD t 0#8 := by
  have hlt : leValue l < 256 ^ l.length := leValue_lt l
  have hword : leValue l < 2 ^ 32 := lt_of_lt_of_le hlt (Nat.pow_le_pow_right (by decide) hl)
  apply BitVec.eq_of_toNat_eq
  rw [busValue, BitVec.extractLsb'_toNat, BitVec.toNat_ofNat, Nat.mod_eq_of_lt hlt, Nat.mod_eq_of_lt hword,
    Nat.shiftRight_eq_div_pow, pow_mul]
  exact leValue_byte l t

/-- Byte `n` of a written value's low `w` bytes. -/
theorem dataBytes_getD {v : Word} {w n : Nat} (h : n < w) :
    ((List.range w).map (dataByte v)).getD n 0#8 = v.extractLsb' (8 * n) 8 := by
  simp [List.getD, h, dataByte]

/-! ### The step of a buffer access -/

/-- The host's read of a buffer while not busy, next in the schedule: the bus value's bytes are the buffer's (20 R62, R69). -/
theorem step_of_bufRead {s : State} {a : Half} {w : Nat} {rest : List Event} {b : Buf} {off : Nat} (hb : s.busy = false)
    (ht : target a.toNat w = some (.buf b off)) (h : s.schedule = .host (.read a w) :: rest) :
    ∃ v : Word, step s = .next { s with schedule := rest, busRead := some v, draws := s.draws + 1 } ∧
      ∀ t, v.extractLsb' (8 * t) 8 = if t < w then s.bufAt b (off + t) else 0#8 := by
  have hb' : (s.withSchedule rest).busy = false := hb
  have hlen : (s.bufBytes b off w).length = w := by simp [State.bufBytes]
  refine ⟨busValue w (leValue (s.bufBytes b off w)), ?_, fun t => ?_⟩
  · rw [step_of_event h]
    simp only [runEvent, hostAccess, hostRead, ht, State.readValue, hb', Bool.false_eq_true, if_false]
    rfl
  · have hw : w ≤ 4 := by have := (target_buf ht).1; omega
    have hbyte := busValue_byte (l := s.bufBytes b off w) (by omega) t
    rw [hlen, bufBytes_getD] at hbyte
    exact hbyte

/-- The host's write of a buffer, next in the schedule: stored, or dropped while busy (20 R62, R67). -/
theorem step_of_bufWrite {s : State} {a : Half} {w : Nat} {v : Word} {rest : List Event} {b : Buf} {off : Nat}
    (ht : target a.toNat w = some (.buf b off)) (h : s.schedule = .host (.write a w v) :: rest) :
    step s = .next ((s.withSchedule rest).unlessBusy
      ((s.withSchedule rest).storeBuf b off ((List.range w).map (dataByte v)))) := by
  rw [step_of_event h]
  simp only [runEvent, hostAccess, hostWrite, ht]

/-- The bytes of a canonical buffer after the host's write of the low `w` bytes of `v` at `off` (20 R62). -/
theorem byteAt_writeData {m : Memory} (h : m.wf = true) (b : Buf) (off w : Nat) (v : Word) (n : Nat) :
    (m.writeBytes off ((List.range w).map (dataByte v))).byteAt b n =
      if off ≤ n ∧ n < off + w then v.extractLsb' (8 * (n - off)) 8 else m.byteAt b n := by
  rw [Memory.byteAt_writeBytes _ b off n h, List.length_map, List.length_range]
  split
  · exact dataBytes_getD (by omega)
  · rfl

/-- Settles O41: one rule for a read of either buffer. -/
theorem bufferReadsAreLittleEndian : Obligations.BufferReadsAreLittleEndian := by
  unfold Obligations.BufferReadsAreLittleEndian
  intro s a w rest hb hw ha hs
  constructor <;> intro hlo hhi
  · obtain ⟨v, hstep, hv⟩ := step_of_bufRead hb (target_img hw ha hlo hhi) hs
    exact ⟨v, hstep, fun t _ => hv t⟩
  · obtain ⟨v, hstep, hv⟩ := step_of_bufRead hb (target_art hw ha hlo hhi) hs
    exact ⟨v, hstep, fun t _ => hv t⟩

/-- Settles O42: while not busy the write stores its bytes, and a store keeps the canonical form. -/
theorem bufferWritesAreLittleEndian : Obligations.BufferWritesAreLittleEndian := by
  unfold Obligations.BufferWritesAreLittleEndian
  intro s a w v rest hb hi hr hw ha hs
  have hb' : (s.withSchedule rest).busy = false := hb
  constructor <;> intro hlo hhi
  · refine ⟨s.img.writeBytes (a.toNat - 0x1000) ((List.range w).map (dataByte v)), ?_, Memory.wf_writeBytes _ _ hi,
      byteAt_writeData hi .img _ w v⟩
    rw [step_of_bufWrite (target_img hw ha hlo hhi) hs, State.unlessBusy_of_idle hb']
    rfl
  · refine ⟨s.art.writeBytes (a.toNat - 0x4000) ((List.range w).map (dataByte v)), ?_, Memory.wf_writeBytes _ _ hr,
      byteAt_writeData hr .art _ w v⟩
    rw [step_of_bufWrite (target_art hw ha hlo hhi) hs, State.unlessBusy_of_idle hb']
    rfl

/-! ### Writes that are dropped or ignored -/

/-- While busy a write of this kind is dropped (20 R67, R68). -/
theorem State.unlessBusy_of_busy {s : State} (h : s.busy = true) (s' : State) : s.unlessBusy s' = s.dropWrite := by
  simp [State.unlessBusy, h]

/-- While busy IMG_LEN, ART_LEN, BASE and MAX_RETRY drop a write (20 R68). -/
theorem writeReg_of_busy {s : State} (hb : s.busy = true) {r : Reg} (hr : r ∈ [Reg.imgLen, .artLen, .base, .maxRetry])
    (v : Word) : writeReg r v s = .next s.dropWrite := by
  simp only [List.mem_cons, List.not_mem_nil, or_false] at hr
  rcases hr with rfl | rfl | rfl | rfl <;> simp only [writeReg, State.unlessBusy_of_busy hb]

/-- The read-only registers ignore a write (20 R68). -/
theorem writeReg_readOnly {r : Reg}
    (hr : r ∈ [Reg.errcode, .blkIdx, .progress, .lastAck, .attempt, .errIndex, .errOffset, .cksum]) (v : Word) (s : State) :
    writeReg r v s = .next s := by
  simp only [List.mem_cons, List.not_mem_nil, or_false] at hr
  rcases hr with rfl | rfl | rfl | rfl | rfl | rfl | rfl | rfl <;> rfl

/-- A host address among the offsets of some registers is the offset of one of them. -/
theorem exists_reg_of_mem_offsets {a : Half} {rs : List Reg} (h : a.toNat ∈ rs.map Reg.offset) :
    ∃ r ∈ rs, a = BitVec.ofNat 16 r.offset := by
  obtain ⟨r, hr, ho⟩ := List.mem_map.1 h
  exact ⟨r, hr, by rw [ho, BitVec.ofNat_toNat, BitVec.setWidth_eq]⟩

/-- A legal access of either buffer's window reaches a buffer (20 R60). -/
theorem target_window {a w : Nat} (hw : w = 1 ∨ w = 2 ∨ w = 4) (ha : a % w = 0) (h1 : 0x1000 ≤ a) (h2 : a < 0x7C00) :
    ∃ b off, target a w = some (.buf b off) := by
  by_cases h : a < 0x4000
  · exact ⟨_, _, target_img hw ha h1 h⟩
  · exact ⟨_, _, target_art hw ha (by omega) h2⟩

/-- Settles O43: the buffer rule and the register rule, each with its dropped writes. -/
theorem busyWritesAreDroppedWithWerr : Obligations.BusyWritesAreDroppedWithWerr := by
  unfold Obligations.BusyWritesAreDroppedWithWerr
  intro s a w v rest hs
  refine ⟨fun hb hw ha hlo hhi => ?buffer, ?registers, ?readOnly⟩
  case buffer =>
    obtain ⟨b, off, ht⟩ := target_window hw ha hlo hhi
    rw [step_of_bufWrite ht hs, State.unlessBusy_of_busy (s := s.withSchedule rest) hb]
    rfl
  case registers =>
    rintro hb rfl hmem
    obtain ⟨r, hr, rfl⟩ := exists_reg_of_mem_offsets (rs := [.imgLen, .artLen, .base, .maxRetry]) hmem
    rw [step_of_regWrite hs, writeReg_of_busy (s := s.withSchedule rest) hb hr]
    rfl
  case readOnly =>
    rintro rfl hmem
    obtain ⟨r, hr, rfl⟩ := exists_reg_of_mem_offsets
      (rs := [.errcode, .blkIdx, .progress, .lastAck, .attempt, .errIndex, .errOffset, .cksum]) hmem
    rw [step_of_regWrite hs, writeReg_readOnly hr]
    rfl

/-- Settles O44: an aligned access there has the unmapped target, busy or not. -/
theorem unmappedAccessesHaveNoEffect : Obligations.UnmappedAccessesHaveNoEffect := by
  unfold Obligations.UnmappedAccessesHaveNoEffect
  intro s a w rest hw ha hrange
  have ht : target a.toNat w = some .unmapped := target_unmapped hw ha hrange
  refine ⟨fun v hs => ?write, fun hs => ⟨busValue w (Config.anyWord s.draws).toNat, ?read⟩⟩ <;> rw [step_of_event hs]
  case write => simp only [runEvent, hostAccess, hostWrite, ht, State.withSchedule]
  case read =>
    simp only [runEvent, hostAccess, hostRead, ht, State.readValue]
    rfl

/-! ### Host accesses while a command runs -/

/-- `s` with the fields of `t` that a host access can change while a command runs: the enables, the clearable flags, the bus
value and the draw counter (20 R67 to R69; 10 R22, R25). -/
def State.withBusFields (s t : State) : State :=
  { s with
    doneIe := t.doneIe, errIe := t.errIe, progIe := t.progIe, done := t.done, err := t.err, prog := t.prog,
    werr := t.werr, busRead := t.busRead, draws := t.draws }

/-- While busy a host access is an ABORT command, which cancels, or reaches the enables, flags and bus alone (20 R65 to R69; 40
R92). -/
theorem hostAccess_of_busy {op : HostOp} {s t : State} (hb : s.busy = true) (h : hostAccess op s = .next t) :
    (∃ a v, op = .write a 4 v ∧ a = 0x0004#16 ∧ opcOf v = 0x21#8 ∧ t = cancel s) ∨ t = s.withBusFields t := by
  rcases hostAccess_cases h with ⟨v, rfl⟩ | ⟨a, w, v, rfl, ⟨ht, hcmd⟩ | ⟨-, rfl⟩ | ⟨-, rfl⟩ | ⟨-, rfl⟩ | ⟨hidle, -⟩ |
    ⟨hidle, -⟩ | rfl⟩
  · exact .inr rfl
  · obtain ⟨ha, rfl⟩ := reg_of_target ht
    rcases issueWord_cases hcmd with ⟨-, hidle, -⟩ | ⟨hop, -, ht⟩ | ⟨-, rfl⟩ | ⟨-, hidle, -⟩
    · simp [hb] at hidle
    · exact .inl ⟨a, v, rfl, ha, hop, ht⟩
    · exact .inr rfl
    · simp [hb] at hidle
  · exact .inr rfl
  · exact .inr rfl
  · exact .inr rfl
  · simp [hb] at hidle
  · simp [hb] at hidle
  · exact .inr rfl

/-- Settles O50: without the ABORT command the access reaches the enables, flags and bus alone. -/
theorem hostCannotDisturbARunningCommand : Obligations.HostCannotDisturbARunningCommand := by
  unfold Obligations.HostCannotDisturbARunningCommand
  intro op s t hb h hno
  rcases hostAccess_of_busy hb h with ⟨a, v, hop, ha, hv, -⟩ | ht
  · exact absurd hv (hno a v hop ha)
  · exact ht

end Sys2Proof.Machine
end

section
/-! PROOFS. The protocol block of a running FLASH (44_sequencer.md R173 to R186): which steps move BLK_IDX and PROGRESS. -/

namespace Sys2Proof.Machine

/-! ### The relations -/

/-- From `s` to `t` the current protocol block and the bytes acknowledged stay. -/
structure State.KeepsBlock (s t : State) : Prop where
  blkIdx   : t.blkIdx = s.blkIdx
  progress : t.progress = s.progress

/-- From `s` to `t` a waiting 0x56 is taken after a whole block was sent; BLK_IDX goes on by one and PROGRESS does not fall
(44 R175). -/
structure State.AcksBlock (s t : State) : Prop where
  waiting  : s.st = .awaitAck
  sent     : s.txpos = Config.totalSize
  ack      : s.rxq.head? = some Config.ackByte
  blkIdx   : t.blkIdx.toNat = s.blkIdx.toNat + 1
  progress : s.progress.toNat ≤ t.progress.toNat

/-! ### The engine's steps -/

/-- The CONNECTED step keeps the block (44 R173). -/
theorem keepsBlock_connectedStep (s : State) : s.KeepsBlock (connectedStep s) := by
  unfold connectedStep
  split <;> exact ⟨rfl, rfl⟩

/-- The SENDING step keeps the block (44 R174). -/
theorem keepsBlock_sendingStep (s : State) : s.KeepsBlock (sendingStep s) := by
  unfold sendingStep
  dsimp only
  split <;> exact ⟨rfl, rfl⟩

/-- The NACKED step keeps the block: it is sent again, or the FLASH ends (44 R179). -/
theorem keepsBlock_nackedStep (s : State) : s.KeepsBlock (nackedStep s) := by
  unfold nackedStep
  split <;> exact ⟨rfl, rfl⟩

/-- The registers after a success byte, last block or not (44 R175). -/
theorem ackedStep_registers (b : Byte) (q : List Byte) (s : State) :
    (ackedStep b q s).blkIdx = s.blkIdx + 1#16 ∧
    (ackedStep b q s).progress = BitVec.ofNat 16 (Config.totalSize * (s.blkIdx.toNat + 1)) := by
  unfold ackedStep
  dsimp only
  split <;> exact ⟨rfl, rfl⟩

/-- The step that takes 0x56 acknowledges the block. With at most 192 blocks neither BLK_IDX nor PROGRESS wraps (44 R175). -/
theorem acksBlock_ackedStep {s : State} {q : List Byte} (hf : s.FlashingOk) (hst : s.st = .awaitAck)
    (hq : s.rxq = Config.ackByte :: q) : s.AcksBlock (ackedStep Config.ackByte q s) := by
  obtain ⟨hidx, hsent⟩ := hf.waiting (.inl hst)
  obtain ⟨hblk, hprog⟩ := ackedStep_registers Config.ackByte q s
  have hcount : s.nblk ≤ 192 := hf.length
  have hacked : s.progress.toNat = 80 * s.blkIdx.toNat := hf.progress
  refine ⟨hst, hsent, by rw [hq]; rfl, ?_, ?_⟩
  · rw [hblk, BitVec.toNat_add_of_lt (by simp only [BitVec.toNat_ofNat]; omega)]
    rfl
  · simp only [hprog, Config.totalSize, BitVec.toNat_ofNat]
    omega

/-- A turn of the engine in a FLASH keeps the block or acknowledges it (44 R173 to R179). -/
theorem engineTurn_block {s : State} (hf : s.FlashingOk) (hs : s.st.flashing = true) :
    s.KeepsBlock (engineTurn s) ∨ s.AcksBlock (engineTurn s) := by
  rcases engineTurn_cases s with ⟨hst, -⟩ | ⟨hst, -⟩ | ⟨-, he⟩ | ⟨-, he⟩ | ⟨q, hst, hq, he⟩ | ⟨b, q, -, -, -, he⟩ |
    ⟨-, -, he⟩ | ⟨-, he⟩ | ⟨-, he⟩
  · simp [hst, EngState.flashing] at hs
  · simp [hst, EngState.flashing] at hs
  · exact .inl (he ▸ keepsBlock_connectedStep s)
  · exact .inl (he ▸ keepsBlock_sendingStep s)
  · exact .inr (he ▸ acksBlock_ackedStep hf hst hq)
  · exact .inl (by rw [he]; exact ⟨rfl, rfl⟩)
  · exact .inl (by rw [he]; exact ⟨rfl, rfl⟩)
  · exact .inl (he ▸ keepsBlock_nackedStep s)
  · exact .inl (by rw [he]; exact ⟨rfl, rfl⟩)

/-! ### The other agents -/

/-- A byte of the device keeps the block (43 R155 to R157). -/
theorem keepsBlock_deviceByte (b : Byte) (s : State) : s.KeepsBlock (deviceByte b s) := by
  unfold deviceByte
  split
  · split <;> exact ⟨rfl, rfl⟩
  · exact ⟨rfl, rfl⟩

/-- A link fault keeps the block (43 R158). -/
theorem keepsBlock_linkFails (s : State) : s.KeepsBlock (linkFails s) := by
  unfold linkFails
  split <;> exact ⟨rfl, rfl⟩

/-- The timeout keeps the block (44 R180). -/
theorem keepsBlock_timeoutFires (s : State) : s.KeepsBlock (timeoutFires s) := by
  unfold timeoutFires
  split <;> exact ⟨rfl, rfl⟩

/-- An ABORT keeps the block (44 R182). -/
theorem keepsBlock_cancel (s : State) : s.KeepsBlock (cancel s) := by
  unfold cancel
  dsimp only
  split <;> exact ⟨rfl, rfl⟩

/-- A host access while a command runs keeps the block (20 R65 to R69). -/
theorem keepsBlock_hostAccess {op : HostOp} {s t : State} (hb : s.busy = true) (h : hostAccess op s = .next t) :
    s.KeepsBlock t := by
  rcases hostAccess_of_busy hb h with ⟨a, v, -, -, -, rfl⟩ | ht
  · exact keepsBlock_cancel s
  · rw [ht]
    exact ⟨rfl, rfl⟩

/-! ### The step -/

/-- An event of a FLASH other than the engine's turn and a reset keeps the block. -/
theorem runEvent_block {e : Event} {s t : State} (hb : s.busy = true) (h : runEvent e s = .next t) :
    e = .engine ∨ e = .reset ∨ s.KeepsBlock t := by
  cases e with
  | engine       => exact .inl rfl
  | reset        => exact .inr (.inl rfl)
  | host op      => exact .inr (.inr (keepsBlock_hostAccess hb h))
  | device b     => cases h; exact .inr (.inr (keepsBlock_deviceByte b s))
  | linkFault    => cases h; exact .inr (.inr (keepsBlock_linkFails s))
  | linkLevel ok => cases h; exact .inr (.inr ⟨rfl, rfl⟩)
  | timeout      => cases h; exact .inr (.inr (keepsBlock_timeoutFires s))

/-- A step of a FLASH is a reset, keeps the block, or acknowledges it. -/
theorem step_block {s t : State} (hf : s.FlashingOk) (hs : s.st.flashing = true) (h : step s = .next t) :
    (∃ rest, s.schedule = .reset :: rest) ∨ s.KeepsBlock t ∨ s.AcksBlock t := by
  rcases step_cases h with ⟨-, rfl⟩ | ⟨e, rest, hsch, hrun⟩
  · exact .inr (engineTurn_block hf hs)
  · rcases runEvent_block (s := s.withSchedule rest) (EngState.busy_of_flashing hs) hrun with rfl | rfl | ⟨hblk, hprog⟩
    · rw [step_of_engine hsch] at h
      cases h
      refine .inr ((engineTurn_block hf hs).imp (fun k => ⟨k.blkIdx, k.progress⟩) fun k => ?_)
      exact ⟨k.waiting, k.sent, k.ack, k.blkIdx, k.progress⟩
    · exact .inl ⟨rest, hsch⟩
    · exact .inr (.inl ⟨hblk, hprog⟩)

/-- Settles O38: a reset ends the FLASH; every other step keeps the block or acknowledges it. -/
theorem blocksAreAcknowledgedInOrder : Obligations.BlocksAreAcknowledgedInOrder := by
  unfold Obligations.BlocksAreAcknowledgedInOrder
  intro s t hinv hs h ht
  rcases step_block (hinv.flashing hs) hs h with ⟨rest, hsch⟩ | hkeep | hack
  · rw [step_of_event hsch] at h
    cases h
    cases ht
  · exact ⟨.inl hkeep.blkIdx, by rw [hkeep.progress]⟩
  · exact ⟨.inr ⟨hack.waiting, hack.sent, hack.ack, hack.blkIdx⟩, hack.progress⟩

end Sys2Proof.Machine
end

section
/-! PROOFS. Command words (30_encoding.md R80 to R87): what the decoder answers on every word, the round trip of a well-formed
command and the reference words; and what a reserved opcode written to CMD does. -/

namespace Sys2Proof.Machine

/-! ### What the decoder answers -/

/-- A word that decodes to CKSUM carries its index in `ARG` (30 R81). -/
theorem operand_of_decodeWord {w : Word} {k : Nat} (h : decodeWord w = .ok (.cksum k)) : k = (argOf w).toNat := by
  unfold decodeWord at h
  split at h <;> cases h
  rfl

/-- A word that does not decode is rejected as reserved, with its opcode (30 R83). -/
theorem reserved_of_decodeWord {w : Word} {e : DecodeError} (h : decodeWord w = .error e) : e = .reserved (opcOf w) := by
  unfold decodeWord at h
  split at h <;> cases h
  rfl

/-- A word decodes to `i` exactly when it has the opcode of `i` and, for CKSUM, its index (30 R81, R84). -/
theorem decodeWord_eq_ok_iff (w : Word) (i : Instr) :
    decodeWord w = .ok i ↔ i.opcode = opcOf w ∧ ∀ k, i = .cksum k → k = (argOf w).toNat := by
  constructor
  · intro h
    exact ⟨opcode_of_decodeWord h, fun k hk => operand_of_decodeWord (hk ▸ h)⟩
  · rintro ⟨hop, harg⟩
    unfold decodeWord
    rw [← hop]
    cases i with
    | cksum k => rw [harg k rfl]; rfl
    | _       => rfl

/-- A word whose opcode is no command's is rejected as reserved (30 R83). -/
theorem decodeWord_of_reserved {w : Word} (h : ∀ i : Instr, i.opcode ≠ opcOf w) :
    decodeWord w = .error (.reserved (opcOf w)) := by
  cases hd : decodeWord w with
  | ok i    => exact absurd (opcode_of_decodeWord hd) (h i)
  | error e => rw [reserved_of_decodeWord hd]

/-- The bytes of a word that decodes to `i` are `i`, with nothing left over (30 R80). -/
theorem decode_wordBytes {w : Word} {i : Instr} (h : decodeWord w = .ok i) : decode (wordBytes w) = .ok (i, []) := by
  simp only [wordBytes, decode, word_of_bytes, h]

/-! ### What the encoder answers -/

/-- The operand of a well-formed command fits `ARG` (30 R81). -/
theorem arg_lt_of_wf {i : Instr} (h : i.wf = true) : i.arg < 65536 := by
  cases i with
  | cksum k => simpa [Instr.wf, argFits, Instr.arg] using h
  | _       => exact Nat.zero_lt_succ _

/-- Decoding the word of a well-formed command gives it back (30 R80 to R82). -/
theorem decodeWord_encode {i : Instr} (h : i.wf = true) : decodeWord (encode i) = .ok i := by
  obtain ⟨hop, harg, -⟩ := Laws.encodedFields_of_fits (arg_lt_of_wf h)
  refine (decodeWord_eq_ok_iff _ _).2 ⟨hop.symm, ?_⟩
  rintro k rfl
  exact harg.symm

/-- The word of a CKSUM whose index fits: the index above the opcode (30 R87). -/
theorem encode_cksum {k : Nat} (hk : k < 65536) : encode (.cksum k) = (BitVec.ofNat 32 k <<< 8) ||| 0x13#32 := by
  have hword : k <<< 8 < 2 ^ 32 := by rw [Nat.shiftLeft_eq]; omega
  apply BitVec.eq_of_toNat_eq
  simp only [encode, Instr.arg, Instr.opcode, BitVec.toNat_append, BitVec.toNat_or, BitVec.toNat_shiftLeft,
    BitVec.toNat_ofNat]
  rw [Nat.mod_eq_of_lt (a := k) (b := 2 ^ 16) hk, Nat.mod_eq_of_lt (a := k) (b := 2 ^ 32) (by omega),
    Nat.mod_eq_of_lt hword]
  simp

/-! ### A command word written to CMD -/

/-- The host's write of a word to CMD, next in the schedule, issues it (40 R90). -/
theorem step_of_issues {s : State} {w : Word} {rest : List Event} (h : Spec.Issues s w rest) :
    step s = issueWord w (s.withSchedule rest) :=
  step_of_regWrite (r := .cmd) h

/-- A word whose opcode is no command's issues as reserved (30 R83). -/
theorem issueWord_of_reserved {w : Word} (h : ∀ i : Instr, i.opcode ≠ opcOf w) (s : State) :
    issueWord w s = .next (issueReserved s) := by
  rw [issueWord, decodeWord_of_reserved h]

/-- An engine that is not busy is in no FLASH. -/
theorem State.flashing_of_idle {s : State} (h : s.busy = false) : s.st.flashing = false := by
  cases hf : s.st.flashing with
  | false => rfl
  | true  => exact absurd ((EngState.busy_of_flashing hf).symm.trans h) (by decide)

/-- A command refused at its acceptance records index and offset 0: no FLASH is running (40 R91, R93; 60 R204, R205). -/
theorem raiseError_accept_of_idle {s : State} (h : s.busy = false) (c : ErrorCode) :
    s.accept.raiseError c = Spec.refusedWith c s := by
  have hf : s.accept.st.flashing = false := State.flashing_of_idle h
  simp only [State.raiseError, hf, Bool.false_eq_true, if_false]
  rfl

/-! ### The obligations on command words -/

/-- Settles O1, by the fields of an encoded word and the decoder's answer on them. -/
theorem decodeOfEncode : Obligations.DecodeOfEncode := by
  unfold Obligations.DecodeOfEncode
  intro i hi
  exact ⟨decodeWord_encode hi, decode_wordBytes (decodeWord_encode hi)⟩

/-- Settles O2, by the decoder's answer on a command's opcode and on every other. -/
theorem decodingIsTotalOnOpcode : Obligations.DecodingIsTotalOnOpcode := by
  unfold Obligations.DecodingIsTotalOnOpcode
  intro w
  exact ⟨decodeWord_eq_ok_iff w, decodeWord_of_reserved⟩

/-- Settles O5: the word issues as reserved, which is an error at acceptance while idle and a dropped write while busy. -/
theorem reservedOpcodeIsBadCmdOrDropped : Obligations.ReservedOpcodeIsBadCmdOrDropped := by
  unfold Obligations.ReservedOpcodeIsBadCmdOrDropped
  intro s w rest hw hres
  rw [step_of_issues hw, issueWord_of_reserved hres, issueReserved]
  refine ⟨fun hidle => ?idle, fun hbusy => ?busy⟩
  case idle =>
    have hidle' : (s.withSchedule rest).busy = false := hidle
    rw [State.issue_of_idle hidle', raiseError_accept_of_idle hidle']
    rfl
  case busy =>
    rw [State.issue_of_busy (s := s.withSchedule rest) hbusy]
    rfl

/-- Settles O3: CKSUM's word for every index, the other words by evaluation. -/
theorem referenceWordsEncodeAndDecode : Obligations.ReferenceWordsEncodeAndDecode := by
  unfold Obligations.ReferenceWordsEncodeAndDecode
  exact ⟨by decide, by decide, by decide, by decide, by decide, by decide, by decide, fun _ hk => encode_cksum hk,
    by decide, by decide, by decide, by decide⟩

end Sys2Proof.Machine
end

section
/-! PROOFS. Issuing commands (40_command.md R90 to R94): the step that writes a command word runs the command the word names, a busy
engine runs ABORT alone, and NOP. -/

namespace Sys2Proof.Machine

/-! ### The command a word names -/

/-- A word that decodes issues its command (40 R90). -/
theorem issueWord_of_decodeWord {w : Word} {i : Instr} (h : decodeWord w = .ok i) (s : State) : issueWord w s = exec i s := by
  rw [issueWord, h]

/-- The step that writes a word that decodes to CMD runs its command (40 R90). -/
theorem step_of_decoded_issue {s : State} {w : Word} {i : Instr} {rest : List Event} (hw : Spec.Issues s w rest)
    (hd : decodeWord w = .ok i) : step s = exec i (s.withSchedule rest) := by
  rw [step_of_issues hw, issueWord_of_decodeWord hd]

/-- A word placed by withFetchWord is the next one issued, before the events that were to come (log 12). -/
theorem issues_withFetchWord (s : State) (w : Word) : Spec.Issues (s.withFetchWord 32 w.toNat) w s.schedule := by
  have hword : BitVec.ofNat 32 (w.toNat % 2 ^ 32) = w := by
    rw [Nat.mod_eq_of_lt w.isLt, BitVec.ofNat_toNat, BitVec.setWidth_eq]
  simp only [Spec.Issues, State.withFetchWord, issueEvent, hword]

/-- The words that name ABORT are those with its opcode (30 R82, R84). -/
theorem decodeWord_eq_abort_iff (w : Word) : decodeWord w = .ok .abort ↔ opcOf w = 0x21#8 := by
  constructor
  · intro h
    exact (opcode_of_decodeWord h).symm
  · intro h
    exact (decodeWord_eq_ok_iff w .abort).2 ⟨h.symm, nofun⟩

/-! ### The obligations on issuing commands -/

/-- Settles O6: an ABORT word decodes to ABORT, and of the two things a busy engine can do with a word the other is to drop it. -/
theorem busyCommandsAreDropped : Obligations.BusyCommandsAreDropped := by
  unfold Obligations.BusyCommandsAreDropped
  intro s w rest hw hbusy
  refine ⟨fun hop => ?abort, fun hop => ?dropped⟩
  case abort => exact step_of_decoded_issue hw ((decodeWord_eq_abort_iff w).2 hop)
  case dropped =>
    rw [step_of_issues hw]
    rcases issueWord_of_busy (s := s.withSchedule rest) hbusy w with ⟨habort, -⟩ | hdrop
    · exact absurd ((decodeWord_eq_abort_iff w).1 habort) hop
    · exact hdrop

/-- Settles O4: the write of a word runs the command it decodes to, and a well-formed command is what its own word decodes to. -/
theorem stepRunsTheCommandWritten : Obligations.StepRunsTheCommandWritten := by
  unfold Obligations.StepRunsTheCommandWritten
  refine ⟨fun s w i rest hw hd => ?written, fun s i hi => ?placed⟩
  case written => exact step_of_decoded_issue hw hd
  case placed => exact step_of_decoded_issue (issues_withFetchWord s (encode i)) (decodeWord_encode hi)

/-- Settles O7: NOP's acceptance is the success completion, and a busy engine drops it as it drops every command but ABORT. -/
theorem nopCompletes : Obligations.NopCompletes := by
  unfold Obligations.NopCompletes
  intro s
  refine ⟨fun hidle => ?idle, fun hbusy => ?busy⟩
  case idle =>
    rw [exec, execNop, State.issue_of_idle hidle]
    rfl
  case busy =>
    rw [exec, execNop, State.issue_of_busy hbusy]
    rfl

end Sys2Proof.Machine
end

section
/-! PROOFS. Frames and checksums (41_framer.md R102 to R105, R113): the fields of a frame, the checksum field of a frame taken
out and put back, the word sum and its two reductions. -/

namespace Sys2Proof.Machine

/-! ### The three parts of a frame -/

section Parts

variable {head tail : List Byte} {c0 c1 : Byte} (h : head.length = 6)
include h

/-- Bytes 0 to 5 of a frame are its header without the checksum. -/
theorem take_six_of_parts : (head ++ [c0, c1] ++ tail).take 6 = head := by
  rw [List.append_assoc, ← h, List.take_left]

/-- Byte 6 on of a frame are its checksum and what follows. -/
theorem drop_six_of_parts : (head ++ [c0, c1] ++ tail).drop 6 = c0 :: c1 :: tail := by
  rw [List.append_assoc, ← h, List.drop_left]
  rfl

/-- Byte 8 on of a frame are its payload and pad. -/
theorem drop_eight_of_parts : (head ++ [c0, c1] ++ tail).drop 8 = tail :=
  List.drop_left' (by simp [h])

/-- Zeroing the checksum field of a frame (41 R109). -/
theorem zeroCksumField_of_parts : zeroCksumField (head ++ [c0, c1] ++ tail) = head ++ [0#8, 0#8] ++ tail := by
  rw [zeroCksumField, take_six_of_parts h, drop_eight_of_parts h]

/-- Reading the checksum field of a frame (41 R109). -/
theorem storedCksum_of_parts (bo : ByteOrder) :
    storedCksum bo (head ++ [c0, c1] ++ tail) = BitVec.ofNat 16 (get16 bo c0 c1) := by
  rw [storedCksum, drop_six_of_parts h]

end Parts

/-- The payload of frame `k` has `min(64, L - 64k)` bytes (41 R102). -/
theorem length_payload (s : State) (k : Nat) :
    (s.imgBytes (64 * k) (payloadLen s.imgLen.toNat k)).length = min 64 (s.imgLen.toNat - 64 * k) := by
  simp [State.imgBytes, payloadLen]

/-- Settles O16, from the shape of a frame whose payload is IMG[64k ..). -/
theorem frameLayout : Obligations.FrameLayout := by
  unfold Obligations.FrameLayout
  intro s k _ _ haddr
  have hpay := length_payload s k
  obtain ⟨head, tail, c0, c1, hhead, -, heqHead, heqTail, hzero, hput, -, hframe⟩ :=
    frameOf_shape s.cfg (BitVec.ofNat 16 (s.base.toNat + 64 * k)) s.imgLen (s.imgBytes (64 * k) (payloadLen s.imgLen.toNat k))
      (by omega)
  have hf : s.frame k = head ++ [c0, c1] ++ tail := hframe
  refine ⟨_, BitVec.ofNat 16 (s.base.toNat + 64 * k), rfl, ?addr, length_frame s k, ?header, ?cksum, ?payload, ?pad⟩
  case addr => rw [BitVec.toNat_ofNat]; omega
  case header => rw [hf, take_six_of_parts hhead, heqHead]
  case cksum =>
    rw [hf, take_six_of_parts hhead, drop_six_of_parts hhead, drop_eight_of_parts hhead, ← hzero, hput]
    rfl
  case payload =>
    rw [hf, drop_eight_of_parts hhead, heqTail, ← hpay, List.take_left, hpay]
    rfl
  case pad => rw [hf, ← List.drop_drop, drop_eight_of_parts hhead, heqTail, ← hpay, List.drop_left]

/-! ### The word sum -/

/-- A word is below 2^16. -/
theorem get16_lt (bo : ByteOrder) (a b : Byte) : get16 bo a b < 65536 := by
  have ha := a.isLt
  have hb := b.isLt
  cases bo <;> simp only [get16] <;> omega

/-- The word sum as a sum over word indices (41 R104). -/
theorem wordSum_eq_sum (bo : ByteOrder) : ∀ (n : Nat) {f : List Byte}, f.length = 2 * n →
    wordSum bo f = ((List.range n).map fun m => get16 bo (f.getD (2 * m) 0#8) (f.getD (2 * m + 1) 0#8)).sum
  | 0, [], _              => rfl
  | n + 1, a :: b :: f, h => by
    have hf : f.length = 2 * n := by simp only [List.length_cons] at h; omega
    rw [wordSum, wordSum_eq_sum bo n hf, List.range_succ_eq_map, List.map_cons, List.sum_cons, List.map_map]
    congr 1
  | n + 1, [_], h         => by simp only [List.length_cons, List.length_nil] at h; omega

/-- The sum of `n` words is at most `65535 n`. -/
theorem wordSum_le (bo : ByteOrder) : ∀ (n : Nat) {f : List Byte}, f.length = 2 * n → wordSum bo f ≤ 65535 * n
  | 0, [], _              => Nat.zero_le _
  | n + 1, a :: b :: f, h => by
    have hf : f.length = 2 * n := by simp only [List.length_cons] at h; omega
    have hrest := wordSum_le bo n hf
    have hword := get16_lt bo a b
    simp only [wordSum]
    omega
  | n + 1, [_], h         => by simp only [List.length_cons, List.length_nil] at h; omega

/-- The sum of 40 words is below 2^22 (41 R104). -/
theorem wordSum_lt {f : List Byte} (h : f.length = 80) (bo : ByteOrder) : wordSum bo f < 2 ^ 22 := by
  have := wordSum_le bo 40 (f := f) h
  omega

/-- In the two byte orders the word sum weighs the same two byte sums the other way round. -/
theorem wordSum_be_le : ∀ (n : Nat) {f : List Byte}, f.length = 2 * n →
    ∃ even odd, wordSum .be f = 256 * even + odd ∧ wordSum .le f = even + 256 * odd ∧ (even + odd = 0 → ∀ b ∈ f, b = 0#8)
  | 0, [], _              => ⟨0, 0, rfl, rfl, fun _ _ hb => absurd hb List.not_mem_nil⟩
  | n + 1, a :: b :: f, h => by
    have hf : f.length = 2 * n := by simp only [List.length_cons] at h; omega
    obtain ⟨even, odd, hbe, hle, hzero⟩ := wordSum_be_le n hf
    refine ⟨a.toNat + even, b.toNat + odd, ?_, ?_, fun hsum => ?_⟩
    · simp only [wordSum, get16, hbe]; omega
    · simp only [wordSum, get16, hle]; omega
    · have ha : a = 0#8 := BitVec.eq_of_toNat_eq (by simp only [BitVec.toNat_ofNat]; omega)
      have hb : b = 0#8 := BitVec.eq_of_toNat_eq (by simp only [BitVec.toNat_ofNat]; omega)
      simpa [ha, hb] using hzero (by omega)
  | n + 1, [_], h         => by simp only [List.length_cons, List.length_nil] at h; omega

/-! ### The two reductions -/

/-- Under FOLD the checksum of a sum below 2^22 is its second end-around carry: 16 bits hold it (41 R104). -/
theorem reduceSum_fold_toNat {S : Nat} (h : S < 2 ^ 22) :
    (reduceSum .fold S).toNat = endAroundCarry (endAroundCarry S) := by
  simp only [reduceSum, endAroundCarry, BitVec.toNat_ofNat]
  omega

/-- Settles O17, from the word sum as a sum over indices and the size of its reductions. -/
theorem cksumIsTheReducedWordSum : Obligations.CksumIsTheReducedWordSum := by
  unfold Obligations.CksumIsTheReducedWordSum
  intro p f hf
  have hlt := wordSum_lt hf p.byteOrder
  refine ⟨wordSum p.byteOrder f, _, wordSum_eq_sum p.byteOrder 40 hf, hlt, rfl, fun hmode => ?fold, fun hmode => ?mod16⟩
  case fold => rw [cksumOf, hmode, reduceSum_fold_toNat hlt]; rfl
  case mod16 => rw [cksumOf, hmode, reduceSum, BitVec.toNat_ofNat]

/-- Two end-around carries of a sum of 1 up to 2^22 are the ones' complement sum (41 R113). -/
theorem reduceSum_fold_onesComplement {S : Nat} (h1 : 1 ≤ S) (h2 : S < 2 ^ 22) :
    (reduceSum .fold S).toNat = (S - 1) % 0xFFFF + 1 := by
  rw [reduceSum_fold_toNat h2]
  simp only [endAroundCarry]
  omega

/-- Settles O19: the ones' complement sum is at least 1. -/
theorem foldIsTheOnesComplementSum : Obligations.FoldIsTheOnesComplementSum := by
  unfold Obligations.FoldIsTheOnesComplementSum
  intro S h1 h2
  have hsum := reduceSum_fold_onesComplement h1 h2
  refine ⟨hsum, fun h0 => ?_⟩
  rw [h0, BitVec.toNat_ofNat] at hsum
  omega

/-- A field put big-endian has the bytes of its byte swap put little-endian. -/
theorem put16_be_eq_le {u v : Half} (h : v.toNat = 256 * (u.toNat % 256) + u.toNat / 256) : put16 .be u = put16 .le v := by
  have hu := u.isLt
  have hquot : v.toNat / 256 = u.toNat % 256 := by omega
  have hhigh : u.extractLsb' 8 8 = v.extractLsb' 0 8 := BitVec.eq_of_toNat_eq (by
    simp only [BitVec.extractLsb'_toNat, Nat.shiftRight_eq_div_pow, pow_zero, Nat.div_one, Nat.reducePow]; omega)
  have hlow : u.extractLsb' 0 8 = v.extractLsb' 8 8 := BitVec.eq_of_toNat_eq (by
    simp only [BitVec.extractLsb'_toNat, Nat.shiftRight_eq_div_pow, pow_zero, Nat.div_one, Nat.reducePow]; omega)
  simp only [put16, be16, le16, hhigh, hlow]

/-- Settles O20: swapping the bytes of a word multiplies it by 256 modulo 0xFFFF, and so does swapping the weights of the byte
sums. -/
theorem foldIsByteOrderIndependent : Obligations.FoldIsByteOrderIndependent := by
  unfold Obligations.FoldIsByteOrderIndependent
  rintro f hf ⟨b, hb, hne⟩
  obtain ⟨even, odd, hbe, hle, hzero⟩ := wordSum_be_le 40 (f := f) hf
  have hpos : 0 < even + odd := Nat.pos_of_ne_zero fun h0 => hne (hzero h0 b hb)
  have hltBe := wordSum_lt hf .be
  have hltLe := wordSum_lt hf .le
  apply put16_be_eq_le
  rw [reduceSum_fold_onesComplement (by omega) hltBe, reduceSum_fold_onesComplement (by omega) hltLe, hbe, hle]
  omega

end Sys2Proof.Machine
end

section
/-! PROOFS. The framer's commands at issue (41_framer.md R100, R106, R109, R112), each with its refusals and its completion, and
the frame of all eight commands. -/

namespace Sys2Proof.Machine

/-! ### TESTPAT -/

/-- The test pattern holds the byte value `n` at place `n` (41 R100). -/
theorem testPattern_getD {n : Nat} (h : n < 256) : testPattern.getD n 0#8 = BitVec.ofNat 8 n := by
  unfold testPattern
  simp [List.getD_eq_getElem?_getD, h]

/-- TESTPAT is refused on a region that is too long or shorter than the pattern (41 R100). -/
theorem startTestpat_of_outOfRange {s : State} (h : 0x3000 < s.imgLen.toNat ∨ s.imgLen.toNat < 256) :
    startTestpat s = s.raiseError .range := by
  unfold startTestpat
  split
  · rfl
  · next hlong => exact if_pos (h.resolve_left hlong)

/-- TESTPAT writes the pattern and completes on any other region (41 R100). -/
theorem startTestpat_of_inRange {s : State} (h1 : 256 ≤ s.imgLen.toNat) (h2 : s.imgLen.toNat ≤ 0x3000) :
    startTestpat s = { s with img := s.img.writeBytes 0 testPattern }.complete := by
  rw [startTestpat, if_neg (Nat.not_lt.2 h2), if_neg (Nat.not_lt.2 h1)]

/-- A command that its acceptance completes with a new image (60 R203). The image is a variable here: no `rfl` unfolds its
stores. -/
theorem complete_accept_withImg (s : State) (m : Memory) :
    { s.accept with img := m }.complete = { Spec.completed s with img := m } := rfl

/-- Settles O8: the stored pattern reads back. -/
theorem testpatWritesThePattern : Obligations.TestpatWritesThePattern := by
  unfold Obligations.TestpatWritesThePattern
  intro s hidle
  simp only [exec, execTestpat, State.issue_of_idle hidle]
  refine ⟨fun hrange => ?refused, fun hwf hmin hmax =>
    ⟨s.img.writeBytes 0 testPattern, ?completed, Memory.wf_writeBytes _ _ hwf, fun n => ?pattern⟩⟩
  case refused => rw [startTestpat_of_outOfRange (s := s.accept) hrange, raiseError_accept_of_idle hidle]
  case completed =>
    exact congrArg _ ((startTestpat_of_inRange (s := s.accept) hmin hmax).trans (complete_accept_withImg s _))
  case pattern =>
    rw [Memory.byteAt_writeBytes _ _ _ _ hwf, length_testPattern]
    by_cases hn : n < 256
    · rw [if_pos hn, if_pos (by omega), Nat.sub_zero, testPattern_getD hn]
    · rw [if_neg hn, if_neg (by omega)]; rfl

/-! ### PACK and GENERATE -/

/-- The acceptance checks of PACK and GENERATE, failed (41 R106). -/
theorem packOutOfRange_iff (s : State) : packOutOfRange s = true ↔
    0x3000 < s.imgLen.toNat ∨
    (0 < frameCount s.imgLen.toNat ∧ 0xFFFF < s.base.toNat + 64 * (frameCount s.imgLen.toNat - 1)) := by
  simp only [packOutOfRange, Bool.or_eq_true, Bool.and_eq_true, decide_eq_true_eq, gt_iff_lt]

/-- A region that fails a check is refused (41 R106, 42 R135). -/
theorem startPacking_of_outOfRange {s : State} (h : packOutOfRange s = true) (g : Bool) (cmd : Running) :
    startPacking s g cmd = s.raiseError .range := if_pos h

/-- An empty region completes at once (41 R106, 42 R135). -/
theorem startPacking_of_empty {s : State} (h : s.imgLen = 0#16) (g : Bool) (cmd : Running) :
    startPacking s g cmd = { s with artLen := 0#16 }.complete := by
  have hcount : frameCount s.imgLen.toNat = 0 := by rw [h]; rfl
  have hin : ¬ packOutOfRange s = true := by
    rw [packOutOfRange_iff, hcount, h]
    simp
  rw [startPacking, if_neg hin, if_pos hcount]

/-- Any other region starts its packing phase (41 R106, 42 R135). -/
theorem startPacking_of_frames {s : State} (hlen : s.imgLen.toNat ≤ 0x3000) (hcount : 0 < frameCount s.imgLen.toNat)
    (haddr : s.base.toNat + 64 * (frameCount s.imgLen.toNat - 1) ≤ 0xFFFF) (g : Bool) (cmd : Running) :
    startPacking s g cmd =
      { s with nfrm := frameCount s.imgLen.toNat, k := 0, gen := g, st := .packing, running := some cmd } := by
  have hin : ¬ packOutOfRange s = true := by rw [packOutOfRange_iff]; omega
  rw [startPacking, if_neg hin, if_neg (Nat.ne_of_gt hcount)]

/-- Settles O9: the three ways the acceptance shared with GENERATE goes. -/
theorem packIsAcceptedOrRefused : Obligations.PackIsAcceptedOrRefused := by
  unfold Obligations.PackIsAcceptedOrRefused
  intro s hidle
  simp only [exec, execPack, State.issue_of_idle hidle]
  refine ⟨fun hrange => ?refused, fun hempty => ?empty, fun hlen hcount haddr => ?started⟩
  case refused =>
    rw [startPacking_of_outOfRange ((packOutOfRange_iff s.accept).2 hrange), raiseError_accept_of_idle hidle]
  case empty => rw [startPacking_of_empty (s := s.accept) hempty]; rfl
  case started => rw [startPacking_of_frames (s := s.accept) hlen hcount haddr]; rfl

/-! ### CKSUM -/

/-- CKSUM is refused on an artifact that is too long or does not hold the whole frame (41 R109). -/
theorem startCksum_of_outOfRange {s : State} {k : Nat} (h : 15360 < s.artLen.toNat ∨ s.artLen.toNat < 80 * (k + 1)) :
    startCksum k s = s.raiseError .range := by
  unfold startCksum
  split
  · rfl
  · next hlong => exact if_pos (h.resolve_left hlong)

/-- CKSUM of a frame whose three parts are known completes with the recomputed and the stored checksum (41 R109). -/
theorem startCksum_of_parts {s : State} {k : Nat} (hlen : s.artLen.toNat ≤ 15360) (hk : 80 * (k + 1) ≤ s.artLen.toNat)
    {head tail : List Byte} {c0 c1 : Byte} (hhead : head.length = 6)
    (hf : s.artBytes (80 * k) 80 = head ++ [c0, c1] ++ tail) :
    startCksum k s = { s with
      cksumCalc := cksumOf s.cfg (head ++ [0#8, 0#8] ++ tail)
      cksumStored := BitVec.ofNat 16 (get16 s.cfg.byteOrder c0 c1)
      matched := decide
        (cksumOf s.cfg (head ++ [0#8, 0#8] ++ tail) = BitVec.ofNat 16 (get16 s.cfg.byteOrder c0 c1)) }.complete := by
  simp only [startCksum, if_neg (Nat.not_lt.2 hlen), if_neg (Nat.not_lt.2 hk), hf, zeroCksumField_of_parts hhead,
    storedCksum_of_parts hhead]

/-- The three parts of the 80 bytes at an artifact offset. -/
theorem artBytes_parts (s : State) (a : Nat) :
    s.artBytes a 80 = s.artBytes a 6 ++ [s.artAt (a + 6), s.artAt (a + 7)] ++ s.artBytes (a + 8) 72 := by
  rw [show (80 : Nat) = 6 + 2 + 72 from rfl, artBytes_add, artBytes_add]
  rfl

/-- The 80 bytes at an artifact offset with bytes 6 and 7 replaced by 0x00 (41 R109): both sides compute to the same 80
entries. -/
theorem artBytes_zeroed (s : State) (a : Nat) :
    ((List.range 80).map fun t => if t = 6 ∨ t = 7 then 0#8 else s.artAt (a + t)) =
      s.artBytes a 6 ++ [0#8, 0#8] ++ s.artBytes (a + 8) 72 := rfl

/-- Settles O12, from the three parts of the frame in the artifact. -/
theorem cksumRecomputesAndCompares : Obligations.CksumRecomputesAndCompares := by
  unfold Obligations.CksumRecomputesAndCompares
  intro s k hidle
  simp only [exec, execCksum, State.issue_of_idle hidle]
  refine ⟨fun hrange => ?refused, fun hlen hk =>
    ⟨BitVec.ofNat 16 (get16 s.cfg.byteOrder (s.artAt (80 * k + 6)) (s.artAt (80 * k + 7))), _, ?stored, rfl,
      ?completed⟩⟩
  case refused => rw [startCksum_of_outOfRange (s := s.accept) hrange, raiseError_accept_of_idle hidle]
  case completed =>
    rw [startCksum_of_parts (s := s.accept) hlen hk (by simp [State.artBytes]) (artBytes_parts s.accept (80 * k)),
      artBytes_zeroed]
    rfl
  case stored => exact Nat.mod_eq_of_lt (get16_lt _ _ _)

/-- Settles O18: the checksum a packed frame stores is that of the frame with its checksum field zero. -/
theorem cksumMatchesEveryPackedFrame : Obligations.CksumMatchesEveryPackedFrame := by
  unfold Obligations.CksumMatchesEveryPackedFrame
  intro s k addr len pay hidle hlen hk hpay hf
  obtain ⟨head, tail, c0, c1, hhead, -, -, -, hzero, -, hstored, hframe⟩ := frameOf_shape s.cfg addr len pay (by omega)
  have hstart := startCksum_of_parts (s := s.accept) hlen hk hhead (hf.trans hframe)
  have hagree : cksumOf s.cfg (head ++ [0#8, 0#8] ++ tail) = BitVec.ofNat 16 (get16 s.cfg.byteOrder c0 c1) := by
    rw [hstored, hzero, BitVec.ofNat_toNat, BitVec.setWidth_eq]
  rw [exec, execCksum, State.issue_of_idle hidle, hstart]
  exact ⟨_, rfl, decide_eq_true hagree, rfl, rfl, hagree⟩

/-! ### The frame of all eight commands -/

/-- The fields no command changes at issue. -/
def State.inputView (s : State) :
    (Params × Bool × Bool × Bool) × (Half × Half × Byte) × (Bool × List Event × List Byte × Option Word) :=
  ((s.cfg, s.doneIe, s.errIe, s.progIe), (s.imgLen, s.base, s.maxRetry), (s.linkOk, s.schedule, s.tx, s.busRead))

/-- CKSUM's results. -/
def State.cksumView (s : State) : Half × Half := (s.cksumCalc, s.cksumStored)

/-- The session registers of a FLASH. -/
def State.sessionView (s : State) : Half × Half × LastAck × Byte := (s.blkIdx, s.progress, s.lastAck, s.attempt)

/-- From `s` to `t` command `i` changes only what it may change at issue (41 R100, 40 R93, 60 R206, 44 R182). -/
structure IssueFrame (i : Instr) (s t : State) : Prop where
  inputs  : t.inputView = s.inputView
  img     : t.img = s.img ∨ i = .testpat ∧ t.img = s.img.writeBytes 0 testPattern
  art     : i ≠ .abort → t.art = s.art
  cksum   : (∀ k, i ≠ .cksum k) → t.cksumView = s.cksumView
  session : i ≠ .flash → t.sessionView = s.sessionView

/-- A command that leaves every such field is within the frame of each. -/
theorem IssueFrame.of_unchanged {i : Instr} {s t : State}
    (h : (t.inputView, t.img, t.art, t.cksumView, t.sessionView) = (s.inputView, s.img, s.art, s.cksumView, s.sessionView)) :
    IssueFrame i s t := by
  simp only [Prod.mk.injEq] at h
  obtain ⟨inputs, img, art, cksum, session⟩ := h
  exact ⟨inputs, .inl img, fun _ => art, fun _ => cksum, fun _ => session⟩

/-- A command is within its frame if its acceptance is: to drop it changes WERR alone (40 R91, R92). -/
theorem frame_issue {i : Instr} {s : State} {start : State → State} (h : IssueFrame i s (start s.accept)) :
    IssueFrame i s (s.issue start) := by
  unfold State.issue
  split
  · exact .of_unchanged rfl
  · exact h

/-- The acceptance of PACK and GENERATE leaves every such field (41 R106, 42 R135). -/
theorem frame_startPacking (i : Instr) (s : State) (g : Bool) (cmd : Running) :
    IssueFrame i s (startPacking s.accept g cmd) := by
  rcases startPacking_cases s.accept g cmd with h | ⟨-, h⟩ | ⟨-, -, -, h⟩ <;> rw [h] <;> exact .of_unchanged rfl

/-- ABORT leaves all but `ART` (44 R182). -/
theorem frame_cancel (s : State) : IssueFrame .abort s (cancel s) := by
  unfold cancel
  dsimp only
  split <;> exact ⟨rfl, .inl rfl, fun h => absurd rfl h, fun _ => rfl, fun _ => rfl⟩

/-- Every command is within its frame at issue. -/
theorem exec_frame (i : Instr) (s : State) : ∃ t, exec i s = .next t ∧ IssueFrame i s t := by
  cases i
  case nop => exact ⟨_, rfl, frame_issue (.of_unchanged rfl)⟩
  case testpat =>
    refine ⟨_, rfl, frame_issue ?_⟩
    rcases startTestpat_cases s.accept with h | ⟨-, h⟩ <;> rw [h]
    · exact .of_unchanged rfl
    · generalize hm : s.accept.img.writeBytes 0 testPattern = m
      exact ⟨rfl, .inr ⟨rfl, hm.symm⟩, fun _ => rfl, fun _ => rfl, fun _ => rfl⟩
  case pack => exact ⟨_, rfl, frame_issue (frame_startPacking _ s _ _)⟩
  case encrypt =>
    refine ⟨_, rfl, frame_issue ?_⟩
    rcases startEncrypt_cases s.accept with ⟨c, -, h⟩ | ⟨-, h⟩ | ⟨-, -, -, h⟩ <;> rw [h] <;> exact .of_unchanged rfl
  case generate => exact ⟨_, rfl, frame_issue (frame_startPacking _ s _ _)⟩
  case cksum k =>
    refine ⟨_, rfl, frame_issue ?_⟩
    rcases startCksum_cases k s.accept with h | ⟨sum, stored, eq, h⟩ <;> rw [h]
    · exact .of_unchanged rfl
    · exact ⟨rfl, .inl rfl, fun _ => rfl, fun hk => absurd rfl (hk k), fun _ => rfl⟩
  case flash =>
    refine ⟨_, rfl, frame_issue ?_⟩
    rcases startFlash_cases s.accept with ⟨c, -, h⟩ | ⟨-, -, -, h⟩ <;> rw [h]
    · exact .of_unchanged rfl
    · exact ⟨rfl, .inl rfl, fun _ => rfl, fun _ => rfl, fun hf => absurd rfl hf⟩
  case abort =>
    refine ⟨_, rfl, ?_⟩
    split
    · exact frame_cancel s
    · exact .of_unchanged rfl

/-- Settles O15, from the frame of each command; the bytes TESTPAT stores lie below 256. -/
theorem commandsLeaveTheRestAlone : Obligations.CommandsLeaveTheRestAlone := by
  unfold Obligations.CommandsLeaveTheRestAlone
  intro i s t hwf h
  obtain ⟨t', ht', inputs, img, art, cksum, session⟩ := exec_frame i s
  obtain rfl : t = t' := Host.Outcome.next.inj (h.symm.trans ht')
  simp only [State.inputView, State.cksumView, State.sessionView, Prod.mk.injEq, and_assoc] at inputs cksum session
  refine ⟨inputs, fun n hn => ?img, fun hi n => ?art, cksum, session⟩
  case img =>
    rcases img with himg | ⟨hi, himg⟩ <;> rw [State.imgAt, himg]
    · rfl
    · exact Memory.byteAt_writeBytes_outside hwf .img _ (.inr (by rw [length_testPattern]; exact hn hi))
  case art => rw [State.artAt, art hi]; rfl

end Sys2Proof.Machine
end

section
/-! PROOFS. The packing phase (41_framer.md R107, R108): what the PACK step stores, that the frames built so far stand in ART
whatever the agents do, and a PACK left to run. -/

namespace Sys2Proof.Machine

/-! ### The frames in the artifact buffer -/

/-- Storing the frame of 80 bytes at place `k` leaves it and the frames below in `ART` (41 R107). -/
theorem frames_of_store {s t : State} {frame : Nat → List Byte} {k : Nat} (hwf : s.art.wf = true) (hlen : (frame k).length = 80)
    (ht : t.art = s.art.writeBytes (80 * k) (frame k)) (hs : ∀ m, m < k → s.artBytes (80 * m) 80 = frame m) :
    ∀ m, m < k + 1 → t.artBytes (80 * m) 80 = frame m := by
  intro m hm
  rcases Nat.lt_succ_iff_lt_or_eq.1 hm with hlt | rfl
  · rw [artBytes_apart hwf ht (.inl (by omega)), hs m hlt]
  · have hback := artBytes_stored hwf ht
    rwa [hlen] at hback

/-- The fields the packed frames are a function of. -/
def State.packView (s : State) : (EngState × Nat × Memory) × (Params × Half × Half × Memory) :=
  ((s.st, s.k, s.art), (s.cfg, s.base, s.imgLen, s.img))

/-- The packed frames depend on their view alone. -/
theorem State.PackedPrefix.congr {s t : State} (h : s.PackedPrefix) (e : t.packView = s.packView) : t.PackedPrefix := by
  simp only [State.packView, Prod.mk.injEq] at e
  obtain ⟨⟨hst, hk, hart⟩, hcfg, hbase, hlen, himg⟩ := e
  intro ht m hm
  rw [frame_congr hcfg hbase hlen himg, ← h (hst ▸ ht) m (hk ▸ hm)]
  simp only [State.artBytes, State.artAt, hart]

/-- Outside a packing phase nothing is asked of `ART`. -/
theorem packedPrefix_of_not_packing {s : State} (h : s.st ≠ .packing) : s.PackedPrefix := fun hp => absurd hp h

/-- While not busy the engine is not PACKING. -/
theorem packedPrefix_of_not_busy {s : State} (h : s.busy = false) : s.PackedPrefix := by
  refine packedPrefix_of_not_packing fun hp => ?_
  simp [State.busy, hp, EngState.busy] at h

/-! ### The engine's turn -/

/-- The PACK step adds its frame to those already built (41 R107). -/
theorem packedPrefix_packStep {s : State} (hwf : s.art.wf = true) (hst : s.st = .packing) (h : s.PackedPrefix) :
    (packStep s).PackedPrefix := by
  rcases packStep_cases s with ⟨-, he⟩ | ⟨-, -, he⟩ | ⟨-, -, he⟩ <;> rw [he]
  · intro _ m hm
    exact frames_of_store hwf (length_frame s s.k) rfl (h hst) m hm
  · exact packedPrefix_of_not_packing nofun
  · exact packedPrefix_of_not_packing nofun

/-- No step of the engine but the PACK step ends in PACKING (42 R133, 44 R173 to R179). -/
theorem engineTurn_st_ne_packing {s : State} (hs : s.st ≠ .packing) : (engineTurn s).st ≠ .packing := by
  rcases engineTurn_cases s with ⟨hst, h⟩ | ⟨-, h⟩ | ⟨-, h⟩ | ⟨-, h⟩ | ⟨q, -, -, h⟩ | ⟨b, q, -, -, -, h⟩ | ⟨-, -, h⟩ | ⟨-, h⟩ |
    ⟨-, h⟩ <;> rw [h]
  · exact absurd hst hs
  · dsimp only [encryptStep, encryptStepWith]; split <;> [nofun; exact hs]
  · dsimp only [connectedStep]; split <;> nofun
  · dsimp only [sendingStep]; split <;> [nofun; exact hs]
  · dsimp only [ackedStep]; split <;> nofun
  · nofun
  · exact hs
  · dsimp only [nackedStep]; split <;> nofun
  · exact hs

/-- In PACKING the engine's turn is the PACK step (41 R107). -/
theorem engineTurn_of_packing {s : State} (h : s.st = .packing) : engineTurn s = packStep s := by
  simp only [engineTurn, engineStep, h]

/-- The engine's turn keeps the packed frames (41 R107). -/
theorem packedPrefix_engineTurn {s : State} (hwf : s.art.wf = true) (h : s.PackedPrefix) : (engineTurn s).PackedPrefix := by
  by_cases hst : s.st = .packing
  · rw [engineTurn_of_packing hst]
    exact packedPrefix_packStep hwf hst h
  · exact packedPrefix_of_not_packing (engineTurn_st_ne_packing hst)

/-! ### The other agents -/

/-- An error ends the packing phase (60 R204). -/
theorem packedPrefix_raiseError (s : State) (c : ErrorCode) : (s.raiseError c).PackedPrefix :=
  packedPrefix_of_not_packing nofun

/-- A byte of the device keeps the packed frames (43 R155 to R157). -/
theorem packedPrefix_deviceByte {s : State} (h : s.PackedPrefix) (b : Byte) : (deviceByte b s).PackedPrefix := by
  unfold deviceByte
  split
  · split
    · exact h.congr rfl
    · exact packedPrefix_raiseError s .io
  · exact h

/-- A link fault keeps the packed frames (43 R158). -/
theorem packedPrefix_linkFails {s : State} (h : s.PackedPrefix) : (linkFails s).PackedPrefix := by
  unfold linkFails
  split
  · exact packedPrefix_raiseError s .io
  · exact h

/-- The timeout keeps the packed frames (44 R180). -/
theorem packedPrefix_timeoutFires {s : State} (h : s.PackedPrefix) : (timeoutFires s).PackedPrefix := by
  unfold timeoutFires
  split
  · exact packedPrefix_of_not_packing nofun
  · exact h

/-- An ABORT ends the packing phase (44 R182). -/
theorem packedPrefix_cancel (s : State) : (cancel s).PackedPrefix := by
  unfold cancel
  dsimp only
  split <;> exact packedPrefix_of_not_packing nofun

/-- An accepted command that starts to pack has no frame built yet (41 R106). -/
theorem State.Accepted.packedPrefix {s t : State} (h : s.Accepted t) : t.PackedPrefix := by
  rcases h with ⟨c, -, rfl⟩ | rfl | rfl | rfl | ⟨sum, stored, eq, rfl⟩ | ⟨g, -, -, -, rfl⟩ | ⟨-, -, -, rfl⟩ | ⟨-, -, -, rfl⟩
  case inr.inr.inr.inr.inr.inl => exact fun _ m hm => absurd hm (Nat.not_lt_zero m)
  all_goals exact packedPrefix_of_not_packing nofun

/-- A command word keeps the packed frames (40 R90 to R92). -/
theorem packedPrefix_issueWord {v : Word} {s t : State} (hs : s.PackedPrefix) (h : issueWord v s = .next t) :
    t.PackedPrefix := by
  rcases issueWord_cases h with ⟨-, -, rfl⟩ | ⟨-, -, rfl⟩ | ⟨-, rfl⟩ | ⟨-, -, ha⟩
  · exact hs
  · exact packedPrefix_cancel s
  · exact hs.congr rfl
  · exact ha.packedPrefix

/-- A host access keeps the packed frames: the writes that could reach them take effect only while not busy (20 R67, R68). -/
theorem packedPrefix_hostAccess {op : HostOp} {s t : State} (hs : s.PackedPrefix) (h : hostAccess op s = .next t) :
    t.PackedPrefix := by
  rcases hostAccess_cases h with ⟨v, rfl⟩ | ⟨a, w, v, -, ⟨-, hc⟩ | ⟨-, rfl⟩ | ⟨-, rfl⟩ | ⟨-, rfl⟩ |
    ⟨hb, rfl | rfl | rfl | rfl⟩ | ⟨hb, b, off, -, rfl⟩ | rfl⟩
  case inr.inr.inr.inr.inr.inr.inl => cases b <;> exact packedPrefix_of_not_busy hb
  exacts [hs.congr rfl, packedPrefix_issueWord hs hc, hs.congr rfl, hs.congr rfl, hs.congr rfl,
    packedPrefix_of_not_busy hb, packedPrefix_of_not_busy hb, packedPrefix_of_not_busy hb, packedPrefix_of_not_busy hb, hs]

/-! ### The obligation on every step -/

/-- An event keeps the packed frames (41 R107). -/
theorem runEvent_packedPrefix {e : Event} {s t : State} (hwf : s.art.wf = true) (hs : s.PackedPrefix)
    (h : runEvent e s = .next t) : t.PackedPrefix := by
  cases e with
  | engine       => cases h; exact packedPrefix_engineTurn hwf hs
  | host op      => exact packedPrefix_hostAccess hs h
  | device b     => cases h; exact packedPrefix_deviceByte hs b
  | linkFault    => cases h; exact packedPrefix_linkFails hs
  | linkLevel ok => cases h; exact hs.congr rfl
  | timeout      => cases h; exact packedPrefix_timeoutFires hs
  | reset        => cases h; exact packedPrefix_of_not_packing nofun

/-- Settles O23: the PACK step adds a frame, the command that starts to pack has none, and nothing else reaches what the frames
are made of. -/
theorem stepKeepsThePackedFrames : Obligations.StepKeepsThePackedFrames := by
  unfold Obligations.StepKeepsThePackedFrames
  intro s t hinv hs h
  rcases step_cases h with ⟨-, rfl⟩ | ⟨e, rest, -, hrun⟩
  · exact packedPrefix_engineTurn hinv.artForm hs
  · exact runEvent_packedPrefix (s := s.withSchedule rest) hinv.artForm (hs.congr rfl) hrun

/-! ### One PACK step -/

/-- The engine moves to where its turn ends, the turn next in the schedule or no event left. -/
theorem engineMoves_of_turn {s t : State} (h : engineTurn s = t) : Spec.EngineMoves s t :=
  ⟨fun hs => by rw [step_of_empty hs, h], fun rest hs => by rw [step_of_engine hs, h]; rfl⟩

/-- With the port closed the success completion sets DONE and ends the command, no more (60 R203). -/
theorem complete_of_closed {s : State} (h : s.portOpen = false) :
    s.complete = { s with done := true, st := .done, running := none } := by
  simp only [State.complete, State.closePort, h, Bool.false_eq_true, if_false]

/-- Before the last frame the PACK step stores Frame(k) and moves on (41 R107). -/
theorem packStep_of_more {s : State} (h : s.k + 1 ≠ s.nfrm) :
    packStep s = { s with art := s.art.writeBytes (80 * s.k) (s.frame s.k), k := s.k + 1 } := if_neg h

/-- The last PACK step of a PACK completes it (41 R107). -/
theorem packStep_of_last_pack {s : State} (h : s.k + 1 = s.nfrm) (hg : s.gen = false) :
    packStep s = State.complete { s with
      art := s.art.writeBytes (80 * s.k) (s.frame s.k), k := s.k + 1, artLen := BitVec.ofNat 16 (80 * s.nfrm) } := by
  rcases packStep_cases s with ⟨hk, -⟩ | ⟨-, -, he⟩ | ⟨-, hg', -⟩
  · exact absurd h hk
  · exact he
  · simp [hg] at hg'

/-- The last PACK step of a GENERATE starts the encryption phase (41 R107, 42 R135). -/
theorem packStep_of_last_generate {s : State} (h : s.k + 1 = s.nfrm) (hg : s.gen = true) (hn : s.nfrm ≤ 192) :
    packStep s = { s with
      art := s.art.writeBytes (80 * s.k) (s.frame s.k), k := s.k + 1, artLen := BitVec.ofNat 16 (80 * s.nfrm)
      artLenBefore := s.artLen, gen := false, cv := Config.iv, j := 0, nblk16 := 5 * s.nfrm, st := .encrypting } := by
  have hblocks : (BitVec.ofNat 16 (80 * s.nfrm)).toNat / 16 = 5 * s.nfrm := by
    rw [BitVec.toNat_ofNat]; omega
  rcases packStep_cases s with ⟨hk, -⟩ | ⟨-, hg', -⟩ | ⟨-, -, he⟩
  · exact absurd h hk
  · simp [hg] at hg'
  · rw [← hblocks]; exact he

/-- A packing phase has at most 192 frames (41 R101). -/
theorem State.PackingOk.nfrm_le {s : State} (h : s.PackingOk) : s.nfrm ≤ 192 := by
  have hlen : s.imgLen.toNat ≤ 0x3000 := h.length
  rw [h.count, frameCount]
  omega

/-- Settles O21: the stored frame reads back, and the three ways the PACK step goes on. -/
theorem packStepWritesOneFrame : Obligations.PackStepWritesOneFrame := by
  unfold Obligations.PackStepWritesOneFrame
  intro s hinv hst
  have hwf := hinv.artForm
  have hclosed : s.portOpen = false := by rw [hinv.port, hst]; rfl
  refine ⟨s.art.writeBytes (80 * s.k) (s.frame s.k), Memory.wf_writeBytes _ _ hwf, fun n => ?stored,
    fun hk => engineMoves_of_turn ?more, fun hk hg => engineMoves_of_turn ?pack, fun hk hg => engineMoves_of_turn ?generate⟩
  case stored => rw [Memory.byteAt_writeBytes _ _ _ _ hwf, length_frame]; rfl
  case more => rw [engineTurn_of_packing hst, packStep_of_more (Nat.ne_of_lt hk)]
  case pack => rw [engineTurn_of_packing hst, packStep_of_last_pack hk hg, complete_of_closed (by exact hclosed)]
  case generate => rw [engineTurn_of_packing hst, packStep_of_last_generate hk hg (hinv.packing hst).nfrm_le]

/-! ### A packing phase left to run -/

/-- `ART` after the first `n` frames of a packing phase that starts in `s` (41 R107). -/
def State.packedArt (s : State) : Nat → Memory
  | 0     => s.art
  | n + 1 => (s.packedArt n).writeBytes (80 * n) (s.frame n)

/-- Packing keeps the canonical form. -/
theorem packedArt_wf {s : State} (h : s.art.wf = true) : ∀ n, (s.packedArt n).wf = true
  | 0     => h
  | n + 1 => Memory.wf_writeBytes _ _ (packedArt_wf h n)

/-- After `n` frames are packed they stand in `ART` (41 R108). -/
theorem artBytes_of_packedArt {s : State} (h : s.art.wf = true) : ∀ (n : Nat) {t : State}, t.art = s.packedArt n →
    ∀ k, k < n → t.artBytes (80 * k) 80 = s.frame k
  | 0, _, _      => fun k hk => absurd hk (Nat.not_lt_zero k)
  | n + 1, _, ht => frames_of_store (s := { s with art := s.packedArt n }) (packedArt_wf h n) (length_frame s n) ht
    (artBytes_of_packedArt h n rfl)

/-- Packing `n` frames leaves `ART` from `80 n` on alone (41 R108). -/
theorem byteAt_packedArt {s : State} (h : s.art.wf = true) : ∀ (n : Nat) {a : Nat}, 80 * n ≤ a →
    (s.packedArt n).byteAt .art a = s.artAt a
  | 0, _, _      => rfl
  | n + 1, a, ha => by
    rw [State.packedArt, Memory.byteAt_writeBytes_outside (packedArt_wf h n) _ _ (.inr (by rw [length_frame]; omega))]
    exact byteAt_packedArt h n (by omega)

/-- A packing phase left to run has packed `n` frames after `n` steps, until the last frame (41 R107). -/
theorem run_packing {s : State} (hst : s.st = .packing) (hk : s.k = 0) (hs : s.schedule = []) : ∀ n, n < s.nfrm →
    Host.Core.run Sys2Proof.core n s = .next { s with art := s.packedArt n, k := n }
  | 0, _     => by
    show Host.Outcome.next s = .next { s with art := s.art, k := 0 }
    rw [← hk]
  | n + 1, h => by
    rw [run_add n 1 (run_packing hst hk hs n (by omega))]
    apply run_one
    rw [step_of_empty (by exact hs), engineTurn_of_packing (by exact hst), packStep_of_more (by exact Nat.ne_of_lt h)]
    rfl

/-- The packing phase of a PACK left to run completes it with all frames packed (41 R107, R108). -/
theorem run_pack {s : State} (hst : s.st = .packing) (hk : s.k = 0) (hs : s.schedule = []) (hg : s.gen = false)
    (hn : 0 < s.nfrm) : Host.Core.run Sys2Proof.core s.nfrm s = .next (State.complete { s with
      art := s.packedArt s.nfrm, k := s.nfrm, artLen := BitVec.ofNat 16 (80 * s.nfrm) }) := by
  obtain ⟨n, hlast⟩ : ∃ n, n + 1 = s.nfrm := ⟨_, Nat.succ_pred_eq_of_pos hn⟩
  rw [← hlast, run_add n 1 (run_packing hst hk hs n (by omega))]
  apply run_one
  rw [step_of_empty (by exact hs), engineTurn_of_packing (by exact hst),
    packStep_of_last_pack (by exact hlast) (by exact hg), ← hlast]
  rfl

/-- Settles O22: the accepted state starts a packing phase, which left to run packs every frame and completes. -/
theorem packBuildsEveryFrame : Obligations.PackBuildsEveryFrame := by
  unfold Obligations.PackBuildsEveryFrame
  intro s hinv hidle hs hlen hcount haddr
  obtain ⟨-, -, hstart⟩ := packIsAcceptedOrRefused s hidle
  obtain ⟨s0, hexec, ⟨hst, hk, hs0, hg⟩, hn, hart, hframe⟩ : ∃ s0, exec .pack s = .next s0 ∧
      (s0.st = .packing ∧ s0.k = 0 ∧ s0.schedule = [] ∧ s0.gen = false) ∧
      s0.nfrm = (s.imgLen.toNat + 63) / 64 ∧ s0.art = s.art ∧ ∀ k, s0.frame k = s.frame k :=
    ⟨_, hstart hlen hcount haddr, ⟨rfl, rfl, hs, rfl⟩, rfl, rfl, fun _ => rfl⟩
  have hwf : s0.art.wf = true := hart ▸ hinv.artForm
  rw [← hn] at hcount ⊢
  refine ⟨s0, _, hexec, run_pack hst hk hs0 hg hcount, rfl, rfl, ?length, fun k hk => ?frames, fun a ha => ?beyond⟩
  case length => rw [State.complete_artLen, BitVec.toNat_ofNat]; omega
  case frames => rw [artBytes_of_packedArt hwf _ rfl k hk, hframe]
  case beyond =>
    have hbeyond := byteAt_packedArt hwf _ ha
    simpa only [State.artAt, hart, State.complete_art] using hbeyond

end Sys2Proof.Machine
end

section
/-! PROOFS. The cipher engine (42_cipher.md): the acceptance of GENERATE and ENCRYPT, what the ENCRYPT step stores, and both
commands left to run. -/

namespace Sys2Proof.Machine

/-! ### Acceptance -/

/-- Settles O10: the three ways the acceptance shared with PACK goes. -/
theorem generateIsAcceptedOrRefused : Obligations.GenerateIsAcceptedOrRefused := by
  unfold Obligations.GenerateIsAcceptedOrRefused
  intro s hidle
  simp only [exec, execGenerate, State.issue_of_idle hidle]
  refine ⟨fun hrange => ?refused, fun hempty => ?empty, fun hlen hcount haddr => ?started⟩
  case refused =>
    rw [startPacking_of_outOfRange ((packOutOfRange_iff s.accept).2 hrange), raiseError_accept_of_idle hidle]
  case empty => rw [startPacking_of_empty (s := s.accept) hempty]; rfl
  case started => rw [startPacking_of_frames (s := s.accept) hlen hcount haddr]; rfl

/-- ENCRYPT is refused on an artifact that is too long, whatever its alignment (42 R132; 60 R207). -/
theorem startEncrypt_of_tooLong {s : State} (h : 15360 < s.artLen.toNat) : startEncrypt s = s.raiseError .range := if_pos h

/-- ENCRYPT is refused on an artifact that is no whole number of cipher blocks (42 R132). -/
theorem startEncrypt_of_unaligned {s : State} (hlen : s.artLen.toNat ≤ 15360) (h : s.artLen.toNat % 16 ≠ 0) :
    startEncrypt s = s.raiseError .align := by
  rw [startEncrypt, if_neg (Nat.not_lt.2 hlen), if_pos h]

/-- ENCRYPT of an empty artifact completes at once (42 R132). -/
theorem startEncrypt_of_empty {s : State} (h : s.artLen = 0#16) : startEncrypt s = s.complete := by
  simp [startEncrypt, h]

/-- ENCRYPT of any other artifact starts at its first block (42 R132). -/
theorem startEncrypt_of_blocks {s : State} (hlen : s.artLen.toNat ≤ 15360) (halign : s.artLen.toNat % 16 = 0)
    (hne : s.artLen ≠ 0#16) : startEncrypt s = { startBlocks s with running := some .encrypt } := by
  have hpos : s.artLen.toNat ≠ 0 := fun h0 => hne (BitVec.eq_of_toNat_eq h0)
  have hblocks : s.artLen.toNat / 16 ≠ 0 := by omega
  rw [startEncrypt, if_neg (Nat.not_lt.2 hlen), if_neg (not_not.2 halign), if_neg hblocks]

/-- Settles O11: the checks in their order, the empty artifact, and the start. -/
theorem encryptIsAcceptedOrRefused : Obligations.EncryptIsAcceptedOrRefused := by
  unfold Obligations.EncryptIsAcceptedOrRefused
  intro s hidle
  simp only [exec, execEncrypt, State.issue_of_idle hidle]
  refine ⟨fun hlong => ?range, fun hlen hodd => ?align, fun hempty => ?empty, fun hlen halign hne => ?started⟩
  case range => rw [startEncrypt_of_tooLong (s := s.accept) hlong, raiseError_accept_of_idle hidle]
  case align => rw [startEncrypt_of_unaligned (s := s.accept) hlen hodd, raiseError_accept_of_idle hidle]
  case empty => rw [startEncrypt_of_empty (s := s.accept) hempty]; rfl
  case started => rw [startEncrypt_of_blocks (s := s.accept) hlen halign hne]; rfl

/-! ### One ENCRYPT step -/

/-- The ciphertext of the next block: the block chained to `cv` and enciphered (42 R133). -/
def State.nextCipher (s : State) : Block := Config.encryptBlock (xor16 (s.artBlock s.j) s.cv)

/-- The ciphertext of the next block from the bytes in `ART` (42 R133). -/
theorem nextCipher_eq (s : State) :
    s.nextCipher = Config.encryptBlock (blockOfBytes (s.artBytes (16 * s.j) 16) ^^^ s.cv) := rfl

/-- `s` with its next block enciphered in place (42 R133). -/
def State.encipherOne (s : State) : State :=
  { s with art := s.art.writeBytes (16 * s.j) (bytesOfBlock s.nextCipher), cv := s.nextCipher, j := s.j + 1 }

/-- In ENCRYPTING the engine's turn is the ENCRYPT step (42 R133). -/
theorem engineTurn_of_encrypting {s : State} (h : s.st = .encrypting) : engineTurn s = encryptStep s := by
  simp only [engineTurn, engineStep, h]

/-- Before the last block the ENCRYPT step enciphers one and goes on (42 R133). -/
theorem encryptStep_of_more {s : State} (h : s.j + 1 ≠ s.nblk16) : encryptStep s = s.encipherOne := if_neg h

/-- The last ENCRYPT step enciphers one and completes (42 R133). -/
theorem encryptStep_of_last {s : State} (h : s.j + 1 = s.nblk16) : encryptStep s = s.encipherOne.complete := if_pos h

/-- Byte `t` of a cipher block is its bits `8t+7 .. 8t` (42 R130). -/
theorem bytesOfBlock_getD (c : Block) {t : Nat} (h : t < 16) : (bytesOfBlock c).getD t 0#8 = c.extractLsb' (8 * t) 8 := by
  simp [bytesOfBlock, List.getD_eq_getElem?_getD, h]

/-- The completion of a step that enciphers a block, with the port closed (60 R203). The buffer and the block are variables here:
no `rfl` unfolds the store. -/
theorem complete_withBlock {s : State} (h : s.portOpen = false) (m : Memory) (c : Block) :
    State.complete { s with art := m, cv := c, j := s.j + 1 } =
      { s with art := m, cv := c, j := s.j + 1, done := true, st := .done, running := none } :=
  complete_of_closed (s := { s with art := m, cv := c, j := s.j + 1 }) h

/-- Settles O24: the stored block reads back, and the two ways the ENCRYPT step goes on. -/
theorem encryptStepChainsOneBlock : Obligations.EncryptStepChainsOneBlock := by
  unfold Obligations.EncryptStepChainsOneBlock
  intro s hinv hst
  have hwf := hinv.artForm
  have hclosed : s.portOpen = false := by rw [hinv.port, hst]; rfl
  rw [← nextCipher_eq]
  refine ⟨s.art.writeBytes (16 * s.j) (bytesOfBlock s.nextCipher), Memory.wf_writeBytes _ _ hwf, fun n => ?stored,
    fun hj => engineMoves_of_turn ?more, fun hj => engineMoves_of_turn ?last⟩
  case stored =>
    rw [Memory.byteAt_writeBytes _ _ _ _ hwf, length_bytesOfBlock]
    by_cases hn : 16 * s.j ≤ n ∧ n < 16 * s.j + 16
    · rw [if_pos hn, if_pos hn, bytesOfBlock_getD _ (by omega)]
    · rw [if_neg hn, if_neg hn]; rfl
  case more => rw [engineTurn_of_encrypting hst, encryptStep_of_more (Nat.ne_of_lt hj)]; rfl
  case last => rw [engineTurn_of_encrypting hst, encryptStep_of_last hj]; exact complete_withBlock hclosed _ _

/-! ### The ciphertext of an encryption phase -/

/-- CBC gives one block for each (42 R131). -/
@[simp] theorem length_cbc (e : Block → Block) : ∀ (prev : Block) (ps : List Block), (cbc e prev ps).length = ps.length
  | _, []      => rfl
  | _, _ :: ps => congrArg (· + 1) (length_cbc e _ ps)

/-- CBC chains one block more to the last one it gave, or to the chaining value it began with (42 R131). -/
theorem cbc_concat (e : Block → Block) (p : Block) : ∀ (prev : Block) (ps : List Block),
    cbc e prev (ps ++ [p]) = cbc e prev ps ++ [e (xor16 p ((cbc e prev ps).getLastD prev))]
  | _, []         => rfl
  | prev, q :: ps => by
    simp only [List.cons_append, cbc, cbc_concat e p _ ps, List.getLastD_cons]

/-- Storing a list of bytes is storing its two parts one behind the other. -/
theorem Memory.writeBytes_append (bs : List Byte) : ∀ (as : List Byte) (m : Memory) (a : Nat),
    m.writeBytes a (as ++ bs) = (m.writeBytes a as).writeBytes (a + as.length) bs
  | [], _, _      => rfl
  | v :: as, m, a => by
    rw [List.cons_append, Memory.writeBytes, Memory.writeBytes_append bs as, Memory.writeBytes, List.length_cons,
      Nat.add_right_comm, Nat.add_assoc]

/-- The first `n` ciphertext blocks of an encryption phase that starts in `s` (42 R131). -/
def State.cipherBlocks (s : State) (n : Nat) : List Block :=
  cbc Config.encryptBlock s.cv ((List.range n).map s.artBlock)

/-- Their bytes, in address order. -/
def State.cipherBytes (s : State) (n : Nat) : List Byte := (s.cipherBlocks n).flatMap bytesOfBlock

/-- An encryption phase that starts in `s`, after its first `n` blocks (42 R133). -/
def State.enciphered (s : State) (n : Nat) : State :=
  { s with art := s.art.writeBytes 0 (s.cipherBytes n), cv := (s.cipherBlocks n).getLastD s.cv, j := n }

@[simp] theorem length_cipherBytes (s : State) (n : Nat) : (s.cipherBytes n).length = 16 * n := by
  simp [State.cipherBytes, State.cipherBlocks, List.length_flatMap, Nat.mul_comm]

/-- The ciphertext is the CBC of the blocks that stand in `ART` at the start of the phase (42 R131). -/
theorem cipherBytes_eq_cbc {s : State} {n : Nat} {iv : Block} {block : Nat → Block} (hcv : s.cv = iv)
    (h : ∀ j, j < n → s.artBlock j = block j) :
    s.cipherBytes n = (cbc Config.encryptBlock iv ((List.range n).map block)).flatMap bytesOfBlock := by
  have hblocks : (List.range n).map s.artBlock = (List.range n).map block :=
    List.map_congr_left fun j hj => h j (List.mem_range.1 hj)
  rw [State.cipherBytes, State.cipherBlocks, hcv, hblocks]

/-- The ciphertext of one block more is chained to the ciphertext so far (42 R131). -/
theorem cipherBlocks_succ (s : State) (n : Nat) : s.cipherBlocks (n + 1) =
    s.cipherBlocks n ++ [Config.encryptBlock (xor16 (s.artBlock n) ((s.cipherBlocks n).getLastD s.cv))] := by
  simp only [State.cipherBlocks, List.range_succ, List.map_append, List.map_cons, List.map_nil, cbc_concat]

/-- The blocks not yet enciphered hold what they held at the start (42 R134). -/
theorem artBlock_enciphered {s : State} (h : s.art.wf = true) (n : Nat) : (s.enciphered n).artBlock n = s.artBlock n := by
  unfold State.artBlock
  rw [artBytes_apart h (t := s.enciphered n) rfl (.inr (by rw [length_cipherBytes]; simp))]

/-- The block enciphered after the first `n` is the next of CBC (42 R131, R133). -/
theorem encipherOne_enciphered {s : State} (h : s.art.wf = true) (n : Nat) :
    (s.enciphered n).encipherOne = s.enciphered (n + 1) := by
  have hc : (s.enciphered n).nextCipher =
      Config.encryptBlock (xor16 (s.artBlock n) ((s.cipherBlocks n).getLastD s.cv)) := by
    rw [← artBlock_enciphered h n]; rfl
  have hblocks : s.cipherBlocks (n + 1) = s.cipherBlocks n ++ [(s.enciphered n).nextCipher] := by
    rw [hc, cipherBlocks_succ]
  have hbytes : s.cipherBytes (n + 1) = s.cipherBytes n ++ bytesOfBlock (s.enciphered n).nextCipher := by
    rw [State.cipherBytes, hblocks, List.flatMap_append, List.flatMap_singleton]; rfl
  have hart : s.art.writeBytes 0 (s.cipherBytes (n + 1)) =
      (s.enciphered n).art.writeBytes (16 * n) (bytesOfBlock (s.enciphered n).nextCipher) := by
    rw [hbytes, Memory.writeBytes_append, length_cipherBytes, Nat.zero_add]; rfl
  have hcv : (s.cipherBlocks (n + 1)).getLastD s.cv = (s.enciphered n).nextCipher := by
    rw [hblocks, List.getLastD_concat]
  show _ = { s with art := s.art.writeBytes 0 (s.cipherBytes (n + 1)), cv := (s.cipherBlocks (n + 1)).getLastD s.cv, j := n + 1 }
  rw [hart, hcv]
  rfl

/-! ### An encryption phase left to run -/

/-- An encryption phase left to run has enciphered `n` blocks after `n` steps, until the last block (42 R133). -/
theorem run_enciphering {s : State} (hst : s.st = .encrypting) (hj : s.j = 0) (hs : s.schedule = []) (hwf : s.art.wf = true) :
    ∀ n, n < s.nblk16 → Host.Core.run Sys2Proof.core n s = .next (s.enciphered n)
  | 0, _     => by
    show Host.Outcome.next s = .next { s with art := s.art, cv := s.cv, j := 0 }
    rw [← hj]
  | n + 1, h => by
    rw [run_add n 1 (run_enciphering hst hj hs hwf n (by omega)), ← encipherOne_enciphered hwf]
    apply run_one
    rw [step_of_empty (by exact hs), engineTurn_of_encrypting (by exact hst), encryptStep_of_more (by exact Nat.ne_of_lt h)]

/-- An encryption phase left to run completes with all its blocks enciphered (42 R133, R134). -/
theorem run_encrypt {s : State} (hst : s.st = .encrypting) (hj : s.j = 0) (hs : s.schedule = []) (hwf : s.art.wf = true)
    (hn : 0 < s.nblk16) : Host.Core.run Sys2Proof.core s.nblk16 s = .next (s.enciphered s.nblk16).complete := by
  obtain ⟨n, hlast⟩ : ∃ n, n + 1 = s.nblk16 := ⟨_, Nat.succ_pred_eq_of_pos hn⟩
  rw [← hlast, run_add n 1 (run_enciphering hst hj hs hwf n (by omega)), ← encipherOne_enciphered hwf]
  apply run_one
  rw [step_of_empty (by exact hs), engineTurn_of_encrypting (by exact hst), encryptStep_of_last (by exact hlast)]

/-- What a completed encryption phase leaves in `ART`: the ciphertext (42 R134). -/
theorem artBytes_enciphered {s : State} (hwf : s.art.wf = true) (n : Nat) :
    (s.enciphered n).complete.artBytes 0 (16 * n) = s.cipherBytes n := by
  have hback := artBytes_stored (t := (s.enciphered n).complete) hwf (rfl : _ = s.art.writeBytes 0 (s.cipherBytes n))
  rwa [length_cipherBytes] at hback

/-- An encryption phase leaves `ART` beyond its blocks alone (42 R134). -/
theorem artAt_enciphered {s : State} (hwf : s.art.wf = true) {n a : Nat} (ha : 16 * n ≤ a) :
    (s.enciphered n).complete.artAt a = s.artAt a :=
  Memory.byteAt_writeBytes_outside hwf .art _ (.inr (by rwa [length_cipherBytes, Nat.zero_add]))

/-- Settles O25: the accepted state starts an encryption phase with IV loaded and `ART` untouched, which left to run completes. -/
theorem encryptLeavesTheCbcCiphertext : Obligations.EncryptLeavesTheCbcCiphertext := by
  unfold Obligations.EncryptLeavesTheCbcCiphertext
  intro s hinv hidle hs hlen halign hne
  obtain ⟨-, -, -, hstart⟩ := encryptIsAcceptedOrRefused s hidle
  obtain ⟨s0, hexec, ⟨hst, hj, hs0⟩, hn, hcv, hart, hartLen⟩ : ∃ s0, exec .encrypt s = .next s0 ∧
      (s0.st = .encrypting ∧ s0.j = 0 ∧ s0.schedule = []) ∧
      s0.nblk16 = s.artLen.toNat / 16 ∧ s0.cv = 0#128 ∧ s0.art = s.art ∧ s0.artLen = s.artLen :=
    ⟨_, hstart hlen halign hne, ⟨rfl, rfl, hs⟩, rfl, rfl, rfl, rfl⟩
  have hwf : s0.art.wf = true := hart ▸ hinv.artForm
  have hpos : s.artLen.toNat ≠ 0 := fun h0 => hne (BitVec.eq_of_toNat_eq h0)
  have hbytes : s.artLen.toNat = 16 * s0.nblk16 := by omega
  rw [← hn]
  refine ⟨s0, _, hexec, run_encrypt hst hj hs0 hwf (by omega), rfl, rfl, hartLen, ?ciphertext, fun a ha => ?beyond⟩
  case ciphertext =>
    rw [hbytes, artBytes_enciphered hwf]
    refine cipherBytes_eq_cbc hcv fun j _ => ?_
    simp only [State.artBlock, State.artBytes, State.artAt, hart]
  case beyond =>
    rw [artAt_enciphered hwf (by omega), State.artAt, hart]; rfl

/-! ### A GENERATE left to run -/

/-- The packing phase of a GENERATE left to run goes over to the encryption phase with all frames packed (41 R107, 42 R135). -/
theorem run_generate_packing {s : State} (hst : s.st = .packing) (hk : s.k = 0) (hs : s.schedule = []) (hg : s.gen = true)
    (hpos : 0 < s.nfrm) (hmax : s.nfrm ≤ 192) : Host.Core.run Sys2Proof.core s.nfrm s = .next { s with
      art := s.packedArt s.nfrm, k := s.nfrm, artLen := BitVec.ofNat 16 (80 * s.nfrm), artLenBefore := s.artLen
      gen := false, cv := Config.iv, j := 0, nblk16 := 5 * s.nfrm, st := .encrypting } := by
  obtain ⟨n, hlast⟩ : ∃ n, n + 1 = s.nfrm := ⟨_, Nat.succ_pred_eq_of_pos hpos⟩
  rw [← hlast, run_add n 1 (run_packing hst hk hs n (by omega))]
  apply run_one
  rw [step_of_empty (by exact hs), engineTurn_of_packing (by exact hst),
    packStep_of_last_generate (by exact hlast) (by exact hg) (by exact hmax), ← hlast]
  rfl

/-- Frames that stand in `ART` one behind the other are the bytes of their concatenation (42 R135). -/
theorem artBytes_of_frames (t : State) (frame : Nat → List Byte) : ∀ n, (∀ k, k < n → t.artBytes (80 * k) 80 = frame k) →
    t.artBytes 0 (80 * n) = (List.range n).flatMap frame
  | 0, _     => rfl
  | n + 1, h => by
    rw [Nat.mul_succ, artBytes_add, Nat.zero_add, h n (Nat.lt_succ_self n),
      artBytes_of_frames t frame n fun k hk => h k (Nat.lt_succ_of_lt hk),
      List.range_succ, List.flatMap_append, List.flatMap_singleton]

/-- `ART[a .. a + n)` is `n` bytes. -/
@[simp] theorem length_artBytes (s : State) (a n : Nat) : (s.artBytes a n).length = n := by simp [State.artBytes]

/-- A run of artifact bytes is a part of every longer one from the start of `ART`. -/
theorem artBytes_eq_take_drop (s : State) {a n len : Nat} (h : a + n ≤ len) :
    s.artBytes a n = ((s.artBytes 0 len).drop a).take n := by
  obtain ⟨r, rfl⟩ := Nat.exists_eq_add_of_le h
  rw [artBytes_add, artBytes_add, Nat.zero_add, List.append_assoc, List.drop_left' (length_artBytes s 0 a),
    List.take_left' (length_artBytes s a n)]

/-- Settles O26: the packing phase leaves the frames in `ART` and starts an encryption phase with IV loaded, which left to run
enciphers them. -/
theorem generateLeavesTheEncryptedFrames : Obligations.GenerateLeavesTheEncryptedFrames := by
  unfold Obligations.GenerateLeavesTheEncryptedFrames
  intro s hinv hidle hs hlen hcount haddr
  obtain ⟨-, -, hstart⟩ := generateIsAcceptedOrRefused s hidle
  obtain ⟨s0, hexec, ⟨hst, hk, hs0, hg⟩, hn, hart, hframe⟩ : ∃ s0, exec .generate s = .next s0 ∧
      (s0.st = .packing ∧ s0.k = 0 ∧ s0.schedule = [] ∧ s0.gen = true) ∧
      s0.nfrm = (s.imgLen.toNat + 63) / 64 ∧ s0.art = s.art ∧ ∀ k, s0.frame k = s.frame k :=
    ⟨_, hstart hlen hcount haddr, ⟨rfl, rfl, hs, rfl⟩, rfl, rfl, fun _ => rfl⟩
  have hwf0 : s0.art.wf = true := hart ▸ hinv.artForm
  have hmax : s0.nfrm ≤ 192 := by omega
  rw [← hn] at hcount ⊢
  obtain ⟨s1, hrun, ⟨hst1, hj, hs1⟩, hn1, hcv, hart1, hartLen⟩ : ∃ s1, Host.Core.run Sys2Proof.core s0.nfrm s0 = .next s1 ∧
      (s1.st = .encrypting ∧ s1.j = 0 ∧ s1.schedule = []) ∧
      s1.nblk16 = 5 * s0.nfrm ∧ s1.cv = 0#128 ∧ s1.art = s0.packedArt s0.nfrm ∧
      s1.artLen = BitVec.ofNat 16 (80 * s0.nfrm) :=
    ⟨_, run_generate_packing hst hk hs0 hg hcount hmax, ⟨rfl, rfl, hs0⟩, rfl, rfl, rfl, rfl⟩
  have hwf : s1.art.wf = true := hart1 ▸ packedArt_wf hwf0 s0.nfrm
  have hframes : s1.artBytes 0 (80 * s0.nfrm) = (List.range s0.nfrm).flatMap s.frame :=
    artBytes_of_frames s1 s.frame s0.nfrm fun k hk => by rw [artBytes_of_packedArt hwf0 _ hart1 k hk, hframe]
  have hblock : ∀ j, j < 5 * s0.nfrm →
      s1.artBlock j = blockOfBytes ((((List.range s0.nfrm).flatMap s.frame).drop (16 * j)).take 16) := fun j hj => by
    rw [← hframes, ← artBytes_eq_take_drop s1 (by omega)]; rfl
  refine ⟨s0, (s1.enciphered s1.nblk16).complete, hexec, ?run, rfl, rfl, ?length, ?ciphertext⟩
  case run =>
    rw [show 6 * s0.nfrm = s0.nfrm + s1.nblk16 by omega, run_add _ _ hrun, run_encrypt hst1 hj hs1 hwf (by omega)]
  case length =>
    show s1.artLen.toNat = 80 * s0.nfrm
    rw [hartLen, BitVec.toNat_ofNat]; omega
  case ciphertext =>
    rw [show 80 * s0.nfrm = 16 * s1.nblk16 by omega, artBytes_enciphered hwf, hn1]
    exact cipherBytes_eq_cbc hcv hblock

end Sys2Proof.Machine
end

section
/-! PROOFS. The serial transport (43_transport.md R154 to R158, R161): what a byte of the device and a link fault do to the port, and
that the SENDING step alone transmits. -/

namespace Sys2Proof.Machine

/-! ### An error while the port is open -/

/-- While the port is open an error ends the FLASH with the record of its block (60 R204, R205). -/
theorem raiseError_of_open {s : State} (hopen : s.portOpen = true) (hflash : s.st.flashing = true) (c : ErrorCode) :
    s.raiseError c = Spec.flashEndedBy c s := by
  simp only [State.raiseError, State.closePort, Spec.flashEndedBy, hopen, hflash, if_true]

/-- In a sound state the port is open only in a FLASH (44 R186). -/
theorem State.Inv.flashing_of_open {s : State} (hinv : s.Inv) (hopen : s.portOpen = true) : s.st.flashing = true :=
  hinv.port.symm.trans hopen

/-! ### A byte of the device -/

/-- While the port is open and the FIFO has room, a byte of the device enters its tail (43 R155). -/
theorem deviceByte_of_room {s : State} (hopen : s.portOpen = true) (hroom : s.rxq.length < s.cfg.rxqDepth) (b : Byte) :
    deviceByte b s = { s with rxq := s.rxq ++ [b] } := by
  simp only [deviceByte, hopen, hroom, if_true]

/-- While the port is open and the FIFO is full, a byte of the device is an overflow (43 R156). -/
theorem deviceByte_of_full {s : State} (hopen : s.portOpen = true) (hfull : s.rxq.length = s.cfg.rxqDepth) (b : Byte) :
    deviceByte b s = s.raiseError .io := by
  simp only [deviceByte, hopen, hfull, Nat.lt_irrefl, if_true, if_false]

/-- While the port is closed a byte of the device is discarded (43 R157). -/
theorem deviceByte_of_closed {s : State} (hclosed : s.portOpen = false) (b : Byte) : deviceByte b s = s := by
  simp only [deviceByte, hclosed, Bool.false_eq_true, if_false]

/-- A byte of the device, next in the schedule. -/
theorem step_of_device {s : State} {b : Byte} {rest : List Event} (h : s.schedule = .device b :: rest) :
    step s = .next (deviceByte b (s.withSchedule rest)) := step_of_event h

/-- Settles O33: one case of the device's byte each; an open port in a sound state means a FLASH is running. -/
theorem deviceBytesQueueOverflowOrVanish : Obligations.DeviceBytesQueueOverflowOrVanish := by
  unfold Obligations.DeviceBytesQueueOverflowOrVanish
  intro s b rest hinv hs
  rw [step_of_device hs]
  refine ⟨fun hopen hroom => ?queued, fun hopen hfull => ?overflow, fun hclosed => ?discarded⟩
  case queued => rw [deviceByte_of_room (by exact hopen) (by exact hroom)]; rfl
  case overflow =>
    rw [deviceByte_of_full (by exact hopen) (by exact hfull),
      raiseError_of_open (by exact hopen) (by exact hinv.flashing_of_open hopen)]
    rfl
  case discarded => rw [deviceByte_of_closed (by exact hclosed)]; rfl

/-! ### A link fault -/

/-- A link fault while the port is open raises IO (43 R158). -/
theorem linkFails_of_open {s : State} (hopen : s.portOpen = true) : linkFails s = s.raiseError .io := if_pos hopen

/-- A link fault, next in the schedule. -/
theorem step_of_linkFault {s : State} {rest : List Event} (h : s.schedule = .linkFault :: rest) :
    step s = .next (linkFails (s.withSchedule rest)) := step_of_event h

/-- Settles O34: the fault raises IO, which in a FLASH records the block. -/
theorem linkFaultEndsTheFlash : Obligations.LinkFaultEndsTheFlash := by
  unfold Obligations.LinkFaultEndsTheFlash
  intro s rest hinv hopen hs
  rw [step_of_linkFault hs, linkFails_of_open (by exact hopen),
    raiseError_of_open (by exact hopen) (by exact hinv.flashing_of_open hopen)]
  rfl

/-! ### The transmit stream -/

/-- The PACK step sends nothing (41 R107). -/
theorem packStep_tx (s : State) : (packStep s).tx = s.tx := by
  rcases packStep_cases s with ⟨-, h⟩ | ⟨-, -, h⟩ | ⟨-, -, h⟩ <;> simp only [h, State.complete_tx]

/-- The ENCRYPT step sends nothing (42 R133). -/
theorem encryptStep_tx (s : State) : (encryptStep s).tx = s.tx := by
  unfold encryptStep encryptStepWith
  dsimp only
  split
  · rw [State.complete_tx]
  · rfl

/-- The CONNECTED step sends nothing (44 R173). -/
theorem connectedStep_tx (s : State) : (connectedStep s).tx = s.tx := by
  unfold connectedStep
  split <;> rfl

/-- The SENDING step sends the byte of the block at `txpos` (43 R154, 44 R174). -/
theorem sendingStep_tx (s : State) : (sendingStep s).tx = s.tx ++ [s.artAt (80 * s.blkIdx.toNat + s.txpos)] := by
  unfold sendingStep
  dsimp only
  split <;> rfl

/-- The step that takes 0x56 sends nothing (44 R175). -/
theorem ackedStep_tx (b : Byte) (q : List Byte) (s : State) : (ackedStep b q s).tx = s.tx := by
  unfold ackedStep
  dsimp only
  split <;> rfl

/-- The NACKED step sends nothing (44 R179). -/
theorem nackedStep_tx (s : State) : (nackedStep s).tx = s.tx := by
  unfold nackedStep
  split <;> rfl

/-- The engine's turn sends nothing but the byte of the SENDING step (43 R161). -/
theorem engineTurn_tx (s : State) : (engineTurn s).tx = s.tx ∨
    s.st = .sending ∧ (engineTurn s).tx = s.tx ++ [s.artAt (80 * s.blkIdx.toNat + s.txpos)] := by
  rcases engineTurn_cases s with ⟨-, h⟩ | ⟨-, h⟩ | ⟨-, h⟩ | ⟨hst, h⟩ | ⟨q, -, -, h⟩ | ⟨b, q, -, -, -, h⟩ | ⟨-, -, h⟩ |
    ⟨-, h⟩ | ⟨-, h⟩ <;> rw [h]
  · exact .inl (packStep_tx s)
  · exact .inl (encryptStep_tx s)
  · exact .inl (connectedStep_tx s)
  · exact .inr ⟨hst, sendingStep_tx s⟩
  · exact .inl (ackedStep_tx _ q s)
  · exact .inl rfl
  · exact .inl rfl
  · exact .inl (nackedStep_tx s)
  · exact .inl rfl

/-- A byte of the device leaves the transmit stream (43 R155 to R157). -/
theorem deviceByte_tx (b : Byte) (s : State) : (deviceByte b s).tx = s.tx := by
  unfold deviceByte
  split
  · split <;> rfl
  · rfl

/-- A link fault leaves the transmit stream (43 R158). -/
theorem linkFails_tx (s : State) : (linkFails s).tx = s.tx := by
  unfold linkFails
  split <;> rfl

/-- The timeout leaves the transmit stream (44 R180). -/
theorem timeoutFires_tx (s : State) : (timeoutFires s).tx = s.tx := by
  unfold timeoutFires
  split <;> rfl

/-- No command sends a byte at issue (43 R161). -/
theorem exec_tx {i : Instr} {s t : State} (h : exec i s = .next t) : t.tx = s.tx := by
  obtain ⟨t', ht', hframe⟩ := exec_frame i s
  obtain rfl : t = t' := Host.Outcome.next.inj (h.symm.trans ht')
  have inputs := hframe.inputs
  simp only [State.inputView, Prod.mk.injEq] at inputs
  obtain ⟨-, -, -, -, htx, -⟩ := inputs
  exact htx

/-- A reserved opcode sends nothing (30 R83). -/
theorem issueReserved_tx (s : State) : (issueReserved s).tx = s.tx := by
  unfold issueReserved State.issue
  split <;> rfl

/-- A command word sends nothing (43 R161). -/
theorem issueWord_tx {v : Word} {s t : State} (h : issueWord v s = .next t) : t.tx = s.tx := by
  unfold issueWord at h
  split at h
  · exact exec_tx h
  · cases h
    exact issueReserved_tx s

/-- A buffer write leaves the transmit stream (20 R62). -/
theorem storeBuf_tx (s : State) (b : Buf) (off : Nat) (bs : List Byte) : (s.storeBuf b off bs).tx = s.tx := by
  cases b <;> rfl

/-- A host access leaves the transmit stream (20 R61 to R69). -/
theorem hostAccess_tx {op : HostOp} {s t : State} (h : hostAccess op s = .next t) : t.tx = s.tx := by
  rcases hostAccess_cases h with ⟨v, rfl⟩ | ⟨a, w, v, -, ⟨-, hc⟩ | ⟨-, rfl⟩ | ⟨-, rfl⟩ | ⟨-, rfl⟩ |
    ⟨-, rfl | rfl | rfl | rfl⟩ | ⟨-, b, off, -, rfl⟩ | rfl⟩
  exacts [rfl, issueWord_tx hc, rfl, rfl, rfl, rfl, rfl, rfl, rfl, storeBuf_tx s b off _, rfl]

/-- No event but the engine's turn changes the transmit stream (43 R161). -/
theorem runEvent_tx {e : Event} {s t : State} (h : runEvent e s = .next t) : e = .engine ∨ t.tx = s.tx := by
  cases e with
  | engine       => exact .inl rfl
  | host op      => exact .inr (hostAccess_tx h)
  | device b     => cases h; exact .inr (deviceByte_tx b s)
  | linkFault    => cases h; exact .inr (linkFails_tx s)
  | linkLevel ok => cases h; exact .inr rfl
  | timeout      => cases h; exact .inr (timeoutFires_tx s)
  | reset        => cases h; exact .inr rfl

/-- Settles O37: only the engine's turn reaches the transmit stream, and of its steps only SENDING's does. -/
theorem onlySendingTransmits : Obligations.OnlySendingTransmits := by
  unfold Obligations.OnlySendingTransmits
  intro s t h
  rcases step_cases h with ⟨hs, rfl⟩ | ⟨e, rest, hs, hrun⟩
  · exact (engineTurn_tx s).imp_right fun hsend => ⟨.inl hs, hsend⟩
  · rcases runEvent_tx hrun with rfl | htx
    · rw [step_of_engine hs] at h
      cases h
      exact (engineTurn_tx s).imp_right fun hsend => ⟨.inr ⟨rest, hs⟩, hsend⟩
    · exact .inl htx

end Sys2Proof.Machine
end

section
/-! PROOFS. The protocol sequencer, one step at a time (44_sequencer.md R171 to R182): the acceptance of FLASH, each engine step of a
FLASH, the timeout, and ABORT. -/

namespace Sys2Proof.Machine

/-! ### The acceptance of FLASH -/

/-- FLASH of an artifact too long for the buffer raises RANGE (44 R171). -/
theorem startFlash_of_tooLong {s : State} (h : 15360 < s.artLen.toNat) : startFlash s = s.raiseError .range := if_pos h

/-- FLASH of a length that is no multiple of the frame raises FRAMING (44 R171). -/
theorem startFlash_of_unframed {s : State} (hlen : s.artLen.toNat ≤ 15360) (h : s.artLen.toNat % 80 ≠ 0) :
    startFlash s = s.raiseError .framing := by
  unfold startFlash
  rw [if_neg (Nat.not_lt.2 hlen), if_pos h]

/-- FLASH of whole frames goes on to open the port (44 R171). -/
theorem startFlash_of_frames {s : State} (hlen : s.artLen.toNat ≤ 15360) (h : s.artLen.toNat % 80 = 0) :
    startFlash s = openForFlash s := by
  unfold startFlash
  rw [if_neg (Nat.not_lt.2 hlen), if_neg (not_not.2 h)]

/-- Where the link is down the port does not open (44 R172). -/
theorem openForFlash_of_down {s : State} (h : s.linkOk = false) : openForFlash s = s.raiseError .openFailed :=
  if_neg (by simp [h])

/-- Where the link is up the port opens on a fresh session (44 R172). -/
theorem openForFlash_of_up {s : State} (h : s.linkOk = true) : openForFlash s = { s.openPort with
    nblk := s.artLen.toNat / 80, blkIdx := 0#16, attempt := 0#8, progress := 0#16, lastAck := .none, txpos := 0
    st := .connected, running := some .flash } := if_pos h

/-- While not busy FLASH is its acceptance (40 R91). -/
theorem exec_flash_of_idle {s : State} (h : s.busy = false) : exec .flash s = .next (startFlash s.accept) := by
  rw [exec, execFlash, State.issue_of_idle h]

/-- Settles O13: the two checks in their order, then the port that stays closed or opens. -/
theorem flashIsAcceptedOrRefused : Obligations.FlashIsAcceptedOrRefused := by
  unfold Obligations.FlashIsAcceptedOrRefused
  intro s hidle
  rw [exec_flash_of_idle hidle]
  refine ⟨fun hlong => ?range, fun hlen hmod => ?framing, fun hlen hmod hdown => ?openFailed, fun hlen hmod hup => ?opened⟩
  case range => rw [startFlash_of_tooLong (by exact hlong), raiseError_accept_of_idle hidle]
  case framing => rw [startFlash_of_unframed (by exact hlen) (by exact hmod), raiseError_accept_of_idle hidle]
  case openFailed =>
    rw [startFlash_of_frames (by exact hlen) (by exact hmod), openForFlash_of_down (by exact hdown),
      raiseError_accept_of_idle hidle]
  case opened =>
    rw [startFlash_of_frames (by exact hlen) (by exact hmod), openForFlash_of_up (by exact hup)]
    rfl

/-! ### The engine's turn in each state of a FLASH -/

theorem engineTurn_of_connected {s : State} (h : s.st = .connected) : engineTurn s = connectedStep s := by
  simp only [engineTurn, engineStep, h]

theorem engineTurn_of_sending {s : State} (h : s.st = .sending) : engineTurn s = sendingStep s := by
  simp only [engineTurn, engineStep, h]

/-- In AWAIT_ACK with 0x56 at the head of the FIFO the block is acknowledged (44 R175). -/
theorem engineTurn_of_ack {s : State} {q : List Byte} (h : s.st = .awaitAck) (hq : s.rxq = Config.ackByte :: q) :
    engineTurn s = ackedStep Config.ackByte q s := by
  simp only [engineTurn, engineStep, awaitAckStep, h, hq, if_true]

/-- In AWAIT_ACK with any other byte at the head of the FIFO the block is rejected (44 R176). -/
theorem engineTurn_of_otherByte {s : State} {b : Byte} {q : List Byte} (h : s.st = .awaitAck) (hq : s.rxq = b :: q)
    (hb : b ≠ Config.ackByte) : engineTurn s = rejectedStep b q s := by
  simp only [engineTurn, engineStep, awaitAckStep, h, hq, hb, if_false]

/-- In AWAIT_ACK with an empty FIFO the engine has no step (44 R177). -/
theorem engineTurn_of_emptyWait {s : State} (h : s.st = .awaitAck) (hq : s.rxq = []) : engineTurn s = s := by
  simp only [engineTurn, engineStep, awaitAckStep, h, hq]

theorem engineTurn_of_nacked {s : State} (h : s.st = .nacked) : engineTurn s = nackedStep s := by
  simp only [engineTurn, engineStep, h]

/-! ### The engine's steps -/

/-- With the port open the success completion closes it and empties the FIFO (43 R153; 60 R203). -/
theorem complete_of_open {s : State} (h : s.portOpen = true) :
    s.complete = { s with portOpen := false, rxq := [], done := true, st := .done, running := none } := by
  simp only [State.complete, State.closePort, h, if_true]

/-- In a sound state of a FLASH the port is open (44 R186). -/
theorem State.Inv.open_of_flashing {s : State} (hinv : s.Inv) (h : s.st.flashing = true) : s.portOpen = true :=
  hinv.port.trans h

/-- Settles O27: an empty artifact completes with the port open; otherwise the engine goes on to send. -/
theorem connectedStepCompletesOrSends : Obligations.ConnectedStep := by
  unfold Obligations.ConnectedStep
  intro s hinv hst
  have hopen : s.portOpen = true := hinv.open_of_flashing (by rw [hst]; rfl)
  refine ⟨fun hn => engineMoves_of_turn ?empty, fun hn => engineMoves_of_turn ?blocks⟩ <;> rw [engineTurn_of_connected hst]
  case empty => rw [connectedStep, if_pos hn, complete_of_open hopen]
  case blocks => rw [connectedStep, if_neg (Nat.ne_of_gt hn)]

/-- The SENDING step sends one byte and, after the last of the block, waits for the device (44 R174). -/
theorem sendingStep_eq {s : State} (h : s.st = .sending) : sendingStep s = { s with
    tx := s.tx ++ [s.artAt (80 * s.blkIdx.toNat + s.txpos)], txpos := s.txpos + 1
    st := if s.txpos + 1 = 80 then .awaitAck else .sending } := by
  by_cases hlast : s.txpos + 1 = 80
  · rw [sendingStep, if_pos hlast, if_pos hlast]
    rfl
  · rw [sendingStep, if_neg hlast, if_neg hlast, ← h]
    rfl

/-- Settles O28. -/
theorem sendingStepSendsOneByte : Obligations.SendingStepSendsOneByte := by
  unfold Obligations.SendingStepSendsOneByte
  intro s hst
  exact engineMoves_of_turn (by rw [engineTurn_of_sending hst, sendingStep_eq hst])

/-- Counting one up in a bit vector is counting one up in its value. -/
theorem add_one_eq_ofNat {n : Nat} (x : BitVec n) : x + 1#n = BitVec.ofNat n (x.toNat + 1) := by
  rw [BitVec.ofNat_add, BitVec.ofNat_toNat, BitVec.setWidth_eq]

/-- The number of a protocol block fits BLK_IDX (10 R31, R41). -/
theorem toNat_blockNumber {n : Nat} (h : n ≤ 192) : (BitVec.ofNat 16 n).toNat = n := by
  rw [BitVec.toNat_ofNat, Nat.mod_eq_of_lt (by omega)]

/-- A success byte while blocks remain: the next block is sent (44 R175). -/
theorem ackedStep_of_more {s : State} (h : s.blkIdx.toNat + 1 ≠ s.nblk) (b : Byte) (q : List Byte) :
    ackedStep b q s = { s with
      rxq := q, lastAck := .received b, progress := BitVec.ofNat 16 (80 * (s.blkIdx.toNat + 1)), prog := true
      attempt := 0#8, blkIdx := BitVec.ofNat 16 (s.blkIdx.toNat + 1), txpos := 0, st := .sending } := by
  rw [ackedStep, if_neg h, add_one_eq_ofNat]

/-- A success byte for the last block: the FLASH completes (44 R175). -/
theorem ackedStep_of_last {s : State} (h : s.blkIdx.toNat + 1 = s.nblk) (b : Byte) (q : List Byte) :
    ackedStep b q s = State.complete { s with
      rxq := q, lastAck := .received b, progress := BitVec.ofNat 16 (80 * s.nblk), prog := true
      attempt := 0#8, blkIdx := BitVec.ofNat 16 s.nblk } := by
  rw [ackedStep, if_pos h, add_one_eq_ofNat, h]

/-- Settles O29: the byte taken acknowledges the block; after the last block PROGRESS is the whole artifact (R178). -/
theorem ackByteAdvances : Obligations.AckByteAdvances := by
  unfold Obligations.AckByteAdvances
  intro s q hinv hst hq
  have hflash : s.st.flashing = true := by rw [hst]; rfl
  refine ⟨fun hmore => engineMoves_of_turn ?more, fun hlast => engineMoves_of_turn ?last⟩ <;> rw [engineTurn_of_ack hst hq]
  case more => rw [ackedStep_of_more (Nat.ne_of_lt hmore)]
  case last =>
    have hwhole : BitVec.ofNat 16 (80 * s.nblk) = s.artLen := by
      rw [← (hinv.flashing hflash).count, BitVec.ofNat_toNat, BitVec.setWidth_eq]
    rw [ackedStep_of_last hlast, complete_of_open (by exact hinv.open_of_flashing hflash), hwhole]

/-- Settles O30: the byte taken is no success byte, or there is none to take. -/
theorem otherBytesRejectAndAnEmptyQueueWaits : Obligations.OtherBytesRejectAndAnEmptyQueueWaits := by
  unfold Obligations.OtherBytesRejectAndAnEmptyQueueWaits
  intro s hst
  exact ⟨fun _ _ hq hb => engineMoves_of_turn (engineTurn_of_otherByte hst hq hb),
    fun hq => engineMoves_of_turn (engineTurn_of_emptyWait hst hq)⟩

/-- The NACKED step below the limit sends the same block again (44 R179). -/
theorem nackedStep_of_retry {s : State} (h : s.attempt.toNat < s.maxRetry.toNat) : nackedStep s = { s with
    attempt := BitVec.ofNat 8 (s.attempt.toNat + 1), rxq := [], txpos := 0, st := .sending } := by
  rw [nackedStep, if_pos h, add_one_eq_ofNat]

/-- The NACKED step at the limit gives up (44 R179). -/
theorem nackedStep_of_limit {s : State} (h : ¬ s.attempt.toNat < s.maxRetry.toNat) : nackedStep s = s.raiseError .nack :=
  if_neg h

/-- Settles O31: giving up with the port open ends the FLASH with the record of its block. -/
theorem nackedStepRetriesOrGivesUp : Obligations.NackedStepRetriesOrGivesUp := by
  unfold Obligations.NackedStepRetriesOrGivesUp
  intro s hinv hst
  have hflash : s.st.flashing = true := by rw [hst]; rfl
  refine ⟨fun hretry => engineMoves_of_turn ?retry, fun hlimit => engineMoves_of_turn ?limit⟩ <;>
    rw [engineTurn_of_nacked hst]
  case retry => rw [nackedStep_of_retry hretry]
  case limit =>
    rw [nackedStep_of_limit (by simp [hlimit]), raiseError_of_open (hinv.open_of_flashing hflash) hflash]

/-! ### The timeout -/

/-- The timeout in AWAIT_ACK with an empty FIFO counts as a rejection (44 R180). -/
theorem timeoutFires_of_emptyWait {s : State} (hst : s.st = .awaitAck) (hq : s.rxq = []) :
    timeoutFires s = { s with lastAck := .timedOut, st := .nacked } := if_pos ⟨hst, hq⟩

/-- Anywhere else the timeout changes nothing (log 1). -/
theorem timeoutFires_of_not_emptyWait {s : State} (h : s.st ≠ .awaitAck ∨ s.rxq ≠ []) : timeoutFires s = s :=
  if_neg (by tauto)

/-- Settles O32: the event is enabled there or it is not. -/
theorem timeoutOnlyOnAnEmptyWait : Obligations.TimeoutOnlyOnAnEmptyWait := by
  unfold Obligations.TimeoutOnlyOnAnEmptyWait
  intro s rest hs
  rw [step_of_event hs, runEvent]
  refine ⟨fun hst hq => ?fires, fun hno => ?nothing⟩
  case fires => rw [timeoutFires_of_emptyWait (by exact hst) (by exact hq)]; rfl
  case nothing => rw [timeoutFires_of_not_emptyWait (by exact hno)]; rfl

/-! ### ABORT -/

/-- While busy ABORT cancels (44 R182). -/
theorem exec_abort_of_busy {s : State} (h : s.busy = true) : exec .abort s = .next (cancel s) := by
  rw [exec, execAbort, if_pos h]

/-- A cancelled FLASH ends with ABORTED; it writes neither `ART` nor ART_LEN (44 R182). -/
theorem cancel_of_flash {s : State} (h : s.running = some .flash) : cancel s = s.raiseError .aborted := by
  simp only [cancel, h]

/-- A cancelled PACK, GENERATE or ENCRYPT leaves `ART` unspecified, and ART_LEN too unless it was ENCRYPT (44 R182). -/
theorem cancel_of_writing {s : State}
    (h : s.running = some .pack ∨ s.running = some .generate ∨ s.running = some .encrypt) :
    cancel s = { s.raiseError .aborted with
      art := Memory.drawn s.draws, artLen := if s.running = some .encrypt then s.artLen else Config.anyLen s.draws
      draws := s.draws + 1 } := by
  rcases h with h | h | h <;> simp [cancel, h]

/-- Outside a FLASH an error leaves the closed port and records index and offset 0 (60 R204, R205). -/
theorem raiseError_of_closed {s : State} (hclosed : s.portOpen = false) (hflash : s.st.flashing = false) (c : ErrorCode) :
    s.raiseError c = { s with
      err := true, errCode := c, errIndex := 0#16, errOffset := 0#16, gen := false, st := .aborted, running := none } := by
  simp only [State.raiseError, State.closePort, hclosed, hflash, Bool.false_eq_true, if_false]

/-- A sound state of PACKING or ENCRYPTING runs a command that writes `ART` (41 R106; 42 R132, R135). -/
theorem State.Inv.running_of_writing {s : State} (hinv : s.Inv) (h : s.st = .packing ∨ s.st = .encrypting) :
    s.running = some .pack ∨ s.running = some .generate ∨ s.running = some .encrypt := by
  rcases h with hp | he
  · have hrun := (hinv.packing hp).command
    cases hg : s.gen with
    | false => exact .inl (by simpa [hg] using hrun)
    | true  => exact .inr (.inl (by simpa [hg] using hrun))
  · exact .inr (hinv.encrypting he).command.symm

/-- Settles O14: nothing to cancel, a FLASH with its port open, or a command that was writing `ART` with the port closed. -/
theorem abortCancels : Obligations.AbortCancels := by
  unfold Obligations.AbortCancels
  refine ⟨fun s hidle => ?idle, fun s hinv hflash => ?flash, fun s hinv hst => ?writing⟩
  case idle => rw [exec, execAbort, if_neg (by simp [hidle])]
  case flash =>
    rw [exec_abort_of_busy (EngState.busy_of_flashing hflash), cancel_of_flash (hinv.flashing hflash).command,
      raiseError_of_open (hinv.open_of_flashing hflash) hflash]
  case writing =>
    have hbusy : s.busy = true := by rcases hst with h | h <;> rw [State.busy, h] <;> rfl
    have hflash : s.st.flashing = false := by rcases hst with h | h <;> rw [h] <;> rfl
    rw [exec_abort_of_busy hbusy, cancel_of_writing (hinv.running_of_writing hst),
      raiseError_of_closed (hinv.port.trans hflash) hflash]

end Sys2Proof.Machine
end

section
/-! PROOFS. The invariant (44_sequencer.md R186; 10_state.md R34, R41, R43, R44; 40_command.md R95): its four parts, and that
reset meets it and every step of every agent keeps it. -/

namespace Sys2Proof.Machine

/-! ### The parts of the invariant -/

/-- The buffers are in canonical form and within their sizes (10 R37, R38). -/
structure BuffersOk (img art : Memory) : Prop where
  imgForm : img.wf = true
  artForm : art.wf = true
  imgFits : img.fits Config.imgMax = true
  artFits : art.fits Config.artMax = true

/-- The port is open exactly in the FLASH states, and the FIFO is empty while it is closed and within its depth (44 R186; 43 R157;
10 R43). -/
structure PortOk (st : EngState) (portOpen : Bool) (rxq : List Byte) (depth : Nat) : Prop where
  port   : portOpen = st.flashing
  closed : portOpen = false → rxq = []
  fifo   : rxq.length ≤ depth

/-- DONE and ERR stand only in their terminal states, an error code exactly in ABORTED (60 R211). -/
structure FlagsOk (st : EngState) (done err : Bool) (code : ErrorCode) : Prop where
  doneFlag : done = true → st = .done
  errFlag  : err = true → st = .aborted
  errCode  : code ≠ .noError ↔ st = .aborted

/-- The running command and its cursors agree with the engine state (10 R41; 44 R186). -/
structure State.CommandOk (s : State) : Prop where
  idle       : s.busy = false → s.running = none
  genPacking : s.gen = true → s.st = .packing
  packing    : s.st = .packing → s.PackingOk
  encrypting : s.st = .encrypting → s.EncryptingOk
  flashing   : s.st.flashing = true → s.FlashingOk

section Parts

variable {s : State}

theorem State.Inv.buffers (h : s.Inv) : BuffersOk s.img s.art := ⟨h.imgForm, h.artForm, h.imgFits, h.artFits⟩

theorem State.Inv.link (h : s.Inv) : PortOk s.st s.portOpen s.rxq s.cfg.rxqDepth := ⟨h.port, h.closed, h.fifo⟩

theorem State.Inv.flags (h : s.Inv) : FlagsOk s.st s.done s.err s.errCode := ⟨h.doneFlag, h.errFlag, h.errCode⟩

theorem State.Inv.command (h : s.Inv) : s.CommandOk := ⟨h.idle, h.genPacking, h.packing, h.encrypting, h.flashing⟩

/-- The invariant is its four parts. -/
theorem inv_of_parts (hb : BuffersOk s.img s.art) (hp : PortOk s.st s.portOpen s.rxq s.cfg.rxqDepth)
    (hf : FlagsOk s.st s.done s.err s.errCode) (hc : s.CommandOk) : s.Inv where
  imgForm    := hb.imgForm
  artForm    := hb.artForm
  imgFits    := hb.imgFits
  artFits    := hb.artFits
  port       := hp.port
  closed     := hp.closed
  fifo       := hp.fifo
  idle       := hc.idle
  genPacking := hc.genPacking
  packing    := hc.packing
  encrypting := hc.encrypting
  flashing   := hc.flashing
  doneFlag   := hf.doneFlag
  errFlag    := hf.errFlag
  errCode    := hf.errCode

end Parts

/-- A store inside the image buffer keeps the buffers sound. -/
theorem BuffersOk.write_img {img art : Memory} (h : BuffersOk img art) {a : Nat} {vs : List Byte}
    (hin : a + vs.length ≤ Config.imgMax) : BuffersOk (img.writeBytes a vs) art :=
  { h with imgForm := Memory.wf_writeBytes vs a h.imgForm, imgFits := Memory.fits_writeBytes vs h.imgFits hin }

/-- A store inside the artifact buffer keeps the buffers sound. -/
theorem BuffersOk.write_art {img art : Memory} (h : BuffersOk img art) {a : Nat} {vs : List Byte}
    (hin : a + vs.length ≤ Config.artMax) : BuffersOk img (art.writeBytes a vs) :=
  { h with artForm := Memory.wf_writeBytes vs a h.artForm, artFits := Memory.fits_writeBytes vs h.artFits hin }

/-- An artifact buffer drawn afresh is sound. -/
theorem BuffersOk.draw_art {img art : Memory} (h : BuffersOk img art) (d : Nat) : BuffersOk img (Memory.drawn d) :=
  { h with artForm := rfl, artFits := rfl }

/-- A closed port with an empty FIFO is sound outside a FLASH. -/
theorem portOk_closed {st : EngState} (h : st.flashing = false) (depth : Nat) : PortOk st false [] depth :=
  ⟨h.symm, fun _ => rfl, Nat.zero_le depth⟩

/-- A busy engine has no completion flag and no error code (60 R211). -/
theorem FlagsOk.clear_of_busy {st : EngState} {done err : Bool} {code : ErrorCode} (h : FlagsOk st done err code)
    (hb : st.busy = true) : done = false ∧ err = false ∧ code = .noError := by
  refine ⟨?_, ?_, ?_⟩
  · cases done with
    | false => rfl
    | true  => rw [h.doneFlag rfl] at hb; cases hb
  · cases err with
    | false => rfl
    | true  => rw [h.errFlag rfl] at hb; cases hb
  · by_contra hc
    rw [h.errCode.1 hc] at hb
    cases hb

/-- With no flag and no code set every engine state but ABORTED is sound. -/
theorem flagsOk_clear {st : EngState} (h : st ≠ .aborted) : FlagsOk st false false .noError :=
  ⟨nofun, nofun, ⟨fun hc => absurd rfl hc, fun ha => absurd ha h⟩⟩

/-- While one command runs its flags stay sound from state to state (60 R211). -/
theorem FlagsOk.of_busy {st st' : EngState} {done err : Bool} {code : ErrorCode} (h : FlagsOk st done err code)
    (hb : st.busy = true) (hb' : st'.busy = true) : FlagsOk st' done err code := by
  obtain ⟨rfl, rfl, rfl⟩ := h.clear_of_busy hb
  exact flagsOk_clear (by rintro rfl; cases hb')

/-- While not busy nothing runs and no cursor is asked about (40 R95). -/
theorem commandOk_of_idle {s : State} (hb : s.busy = false) (hr : s.running = none) (hg : s.gen = false) : s.CommandOk where
  idle _        := hr
  genPacking    := by simp [hg]
  packing hp    := by simp [State.busy, hp, EngState.busy] at hb
  encrypting he := by simp [State.busy, he, EngState.busy] at hb
  flashing hf   := absurd ((State.flashing_of_idle hb).symm.trans hf) (by decide)

/-- While frames are packed only their cursors are asked about (41 R107). -/
theorem commandOk_of_packing {s : State} (hst : s.st = .packing) (hp : s.PackingOk) : s.CommandOk where
  idle hb       := by simp [State.busy, hst, EngState.busy] at hb
  genPacking _  := hst
  packing _     := hp
  encrypting he := by simp [hst] at he
  flashing hf   := by simp [hst, EngState.flashing] at hf

/-- While blocks are enciphered only their cursors are asked about (42 R133). -/
theorem commandOk_of_encrypting {s : State} (hst : s.st = .encrypting) (hg : s.gen = false) (he : s.EncryptingOk) :
    s.CommandOk where
  idle hb      := by simp [State.busy, hst, EngState.busy] at hb
  genPacking   := by simp [hg]
  packing hp   := by simp [hst] at hp
  encrypting _ := he
  flashing hf  := by simp [hst, EngState.flashing] at hf

/-- In a FLASH only its session is asked about (44 R186). -/
theorem commandOk_of_flashing {s : State} (hst : s.st.flashing = true) (hg : s.gen = false) (hf : s.FlashingOk) :
    s.CommandOk where
  idle hb       := absurd ((EngState.busy_of_flashing hst).symm.trans hb) (by decide)
  genPacking    := by simp [hg]
  packing hp    := by simp [hp, EngState.flashing] at hst
  encrypting he := by simp [he, EngState.flashing] at hst
  flashing _    := hf

/-- `gen` is low outside a packing phase (10 R41). -/
theorem State.CommandOk.gen_eq_false {s : State} (h : s.CommandOk) (hst : s.st ≠ .packing) : s.gen = false := by
  cases hg : s.gen with
  | false => rfl
  | true  => exact absurd (h.genPacking hg) hst

/-- `gen` is low while not busy (10 R41). -/
theorem State.CommandOk.gen_of_idle {s : State} (h : s.CommandOk) (hb : s.busy = false) : s.gen = false :=
  h.gen_eq_false fun hp => by simp [State.busy, hp, EngState.busy] at hb

/-- While not busy the port is closed and the FIFO empty (44 R186; 43 R157). -/
theorem State.Inv.closed_of_idle {s : State} (h : s.Inv) (hb : s.busy = false) : s.portOpen = false ∧ s.rxq = [] := by
  have hclosed : s.portOpen = false := h.port.trans (State.flashing_of_idle hb)
  exact ⟨hclosed, h.closed hclosed⟩

/-- Closing the port leaves an empty FIFO (43 R153, R157). -/
theorem closePort_rxq_eq_nil {s : State} (h : s.portOpen = false → s.rxq = []) : s.closePort.rxq = [] := by
  cases hp : s.portOpen with
  | false => simp [State.closePort, hp, h hp]
  | true  => simp [State.closePort, hp]

/-! ### Steps that touch nothing of the invariant, and writes while not busy -/

/-- The fields `CommandOk` speaks of. -/
def State.commandView (s : State) :
    (EngState × Option Running × Bool) × (Nat × Nat × Half × Half) × (Nat × Nat × Half) ×
      (Nat × Half × Half × Byte × Byte × Nat) :=
  ((s.st, s.running, s.gen), (s.k, s.nfrm, s.imgLen, s.base), (s.j, s.nblk16, s.artLen),
    (s.nblk, s.progress, s.blkIdx, s.attempt, s.maxRetry, s.txpos))

theorem State.CommandOk.congr {s t : State} (h : s.CommandOk) (e : t.commandView = s.commandView) : t.CommandOk := by
  obtain ⟨idle, gen, pack, encr, flash⟩ := h
  cases s
  cases t
  simp only [State.commandView, Prod.mk.injEq] at e
  obtain ⟨⟨rfl, rfl, rfl⟩, ⟨rfl, rfl, rfl, rfl⟩, ⟨rfl, rfl, rfl⟩, rfl, rfl, rfl, rfl, rfl, rfl⟩ := e
  exact ⟨idle, gen, fun hp => { pack hp with }, fun he => { encr he with }, fun hf => { flash hf with }⟩

/-- A step that leaves the buffers, the port and the running command keeps the invariant when the flags stay sound. -/
theorem State.Inv.congr {s t : State} (h : s.Inv)
    (e : (t.commandView, t.img, t.art, t.portOpen, t.rxq, t.cfg) = (s.commandView, s.img, s.art, s.portOpen, s.rxq, s.cfg))
    (hf : FlagsOk t.st t.done t.err t.errCode) : t.Inv := by
  simp only [Prod.mk.injEq] at e
  obtain ⟨hview, himg, hart, hport, hrxq, hcfg⟩ := e
  have hst : t.st = s.st := congrArg (fun v => v.1.1) hview
  refine inv_of_parts ?buffers ?port hf (h.command.congr hview)
  case buffers => rw [himg, hart]; exact h.buffers
  case port => rw [hst, hport, hrxq, hcfg]; exact h.link

/-- A write of a buffer or of a length, BASE or MAX_RETRY while not busy keeps the invariant when the buffers stay sound. -/
theorem State.Inv.of_idle {s t : State} (h : s.Inv) (hb : s.busy = false)
    (e : (t.st, t.running, t.gen, t.portOpen, t.rxq, t.done, t.err, t.errCode) =
      (s.st, s.running, s.gen, s.portOpen, s.rxq, s.done, s.err, s.errCode))
    (hbuf : BuffersOk t.img t.art) : t.Inv := by
  simp only [Prod.mk.injEq] at e
  obtain ⟨hst, hrun, hgen, hport, hrxq, hdone, herr, hcode⟩ := e
  obtain ⟨hclosed, hempty⟩ := h.closed_of_idle hb
  have hbt : t.busy = false := by rw [State.busy, hst]; exact hb
  refine inv_of_parts hbuf ?port ?flags
    (commandOk_of_idle hbt (hrun.trans (h.idle hb)) (hgen.trans (h.command.gen_of_idle hb)))
  case port => rw [hport, hclosed, hrxq, hempty]; exact portOk_closed (State.flashing_of_idle hbt) _
  case flags => rw [hst, hdone, herr, hcode]; exact h.flags

/-! ### Completion, error and reset -/

/-- A command that completes ends in a sound state (60 R203). -/
theorem inv_complete {s : State} (hbuf : BuffersOk s.img s.art) (hclosed : s.portOpen = false → s.rxq = [])
    (hgen : s.gen = false) (herr : s.err = false) (hcode : s.errCode = .noError) : s.complete.Inv := by
  refine inv_of_parts hbuf ?port ?flags (commandOk_of_idle rfl rfl hgen)
  case port =>
    show PortOk .done false s.closePort.rxq s.cfg.rxqDepth
    rw [closePort_rxq_eq_nil hclosed]
    exact portOk_closed rfl _
  case flags =>
    show FlagsOk .done true s.err s.errCode
    rw [herr, hcode]
    exact ⟨fun _ => rfl, nofun, by decide⟩

/-- A command that ends in an error ends in a sound state (60 R204). -/
theorem inv_raiseError {s : State} (hbuf : BuffersOk s.img s.art) (hclosed : s.portOpen = false → s.rxq = [])
    (hdone : s.done = false) {c : ErrorCode} (hc : c ≠ .noError) : (s.raiseError c).Inv := by
  refine inv_of_parts hbuf ?port ?flags (commandOk_of_idle rfl rfl rfl)
  case port =>
    show PortOk .aborted false s.closePort.rxq s.cfg.rxqDepth
    rw [closePort_rxq_eq_nil hclosed]
    exact portOk_closed rfl _
  case flags =>
    show FlagsOk .aborted s.done true c
    rw [hdone]
    exact ⟨nofun, fun _ => rfl, fun _ => rfl, fun _ => hc⟩

/-- A state in which nothing was written, queued or set since power-on is sound. -/
theorem inv_of_reset {s : State} (himg : s.img.cells = []) (hart : s.art.cells = []) (hst : s.st = .idle)
    (hport : s.portOpen = false) (hrxq : s.rxq = []) (hrun : s.running = none) (hgen : s.gen = false)
    (hflags : (s.done, s.err, s.errCode) = (false, false, .noError)) : s.Inv := by
  simp only [Prod.mk.injEq] at hflags
  obtain ⟨hdone, herr, hcode⟩ := hflags
  refine inv_of_parts ?buffers ?port ?flags (commandOk_of_idle (by rw [State.busy, hst]; rfl) hrun hgen)
  case buffers => constructor <;> simp [Memory.wf, Memory.fits, himg, hart, rising]
  case port => rw [hst, hport, hrxq]; exact portOk_closed rfl _
  case flags => rw [hst, hdone, herr, hcode]; exact flagsOk_clear nofun

/-- Settles O57: no cell is written, no command runs, the port is closed and no flag is set. -/
theorem resetIsSound : Obligations.ResetIsSound := inv_of_reset rfl rfl rfl rfl rfl rfl rfl rfl

/-- The reset event leads to a sound state (70 R230 to R233). -/
theorem inv_resetEvent (s : State) : s.resetEvent.Inv := inv_of_reset rfl rfl rfl rfl rfl rfl rfl rfl

/-- An error of a running command ends it in a sound state (60 R204). -/
theorem State.Inv.raiseError {s : State} (h : s.Inv) (hb : s.busy = true) {c : ErrorCode} (hc : c ≠ .noError) :
    (s.raiseError c).Inv :=
  inv_raiseError h.buffers h.closed (h.flags.clear_of_busy hb).1 hc

/-- A running command that completes, whatever its last step wrote, ends in a sound state (60 R203). -/
theorem State.Inv.complete {s t : State} (h : s.Inv) (hb : s.busy = true) (hbuf : BuffersOk t.img t.art)
    (hclosed : t.portOpen = false → t.rxq = []) (hgen : t.gen = false)
    (e : (t.err, t.errCode) = (s.err, s.errCode)) : t.complete.Inv := by
  obtain ⟨-, herr, hcode⟩ := h.flags.clear_of_busy hb
  simp only [Prod.mk.injEq] at e
  exact inv_complete hbuf hclosed hgen (e.1.trans herr) (e.2.trans hcode)

end Sys2Proof.Machine
end

section
/-! PROOFS. Every step of every agent keeps the invariant (44_sequencer.md R186): the engine's steps, the device, the link, the
timeout, the commands and the host accesses. -/

namespace Sys2Proof.Machine

/-! ### PACK and ENCRYPT -/

/-- The PACK step keeps the invariant; after the last frame of a GENERATE the blocks of the artifact are counted (41 R107; 42
R135). -/
theorem inv_packStep {s : State} (h : s.Inv) (hst : s.st = .packing) : (packStep s).Inv := by
  have hb : s.busy = true := by rw [State.busy, hst]; rfl
  have hp := h.packing hst
  have hmore : s.k < s.nfrm := hp.more
  have hfew : s.nfrm ≤ 192 := hp.nfrm_le
  have hbuf : BuffersOk s.img (s.art.writeBytes (Config.totalSize * s.k) (s.frame s.k)) :=
    h.buffers.write_art (by simp only [length_frame, Config.totalSize, Config.artMax]; omega)
  rcases packStep_cases s with ⟨hk, he⟩ | ⟨-, hg, he⟩ | ⟨hk, hg, -⟩
  · rw [he]
    refine inv_of_parts hbuf h.link h.flags (commandOk_of_packing hst { hp with more := ?_ })
    show s.k + 1 < s.nfrm
    omega
  · rw [he]
    exact h.complete hb hbuf h.closed hg rfl
  · have hclosed : s.portOpen = false := by rw [h.port, hst]; rfl
    have hlen : (BitVec.ofNat 16 (80 * s.nfrm)).toNat = 80 * s.nfrm := by
      rw [BitVec.toNat_ofNat, Nat.mod_eq_of_lt (by omega)]
    rw [packStep_of_last_generate hk hg hfew]
    refine inv_of_parts hbuf ?port (h.flags.of_busy hb rfl) (commandOk_of_encrypting rfl rfl ?blocks)
    case port =>
      show PortOk .encrypting s.portOpen s.rxq s.cfg.rxqDepth
      rw [hclosed, h.closed hclosed]
      exact portOk_closed rfl _
    case blocks =>
      refine ⟨?_, ?_, ?_, .inr (by rw [hp.command, if_pos hg])⟩ <;> simp only [hlen, Config.blockLen, Config.artMax] <;> omega

/-- The ENCRYPT step keeps the invariant (42 R133). -/
theorem inv_encryptStep {s : State} (h : s.Inv) (hst : s.st = .encrypting) : (encryptStep s).Inv := by
  have hb : s.busy = true := by rw [State.busy, hst]; rfl
  have he := h.encrypting hst
  have hg : s.gen = false := h.command.gen_eq_false (by rw [hst]; nofun)
  have hmore : s.j < s.nblk16 := he.more
  have hcount : 16 * s.nblk16 = s.artLen.toNat := he.count
  have hlen : s.artLen.toNat ≤ 15360 := he.length
  have hbuf : BuffersOk s.img (s.art.writeBytes (16 * s.j) (bytesOfBlock s.nextCipher)) :=
    h.buffers.write_art (by simp only [length_bytesOfBlock, Config.artMax]; omega)
  by_cases hlast : s.j + 1 = s.nblk16
  · rw [encryptStep_of_last hlast, State.encipherOne]
    exact h.complete hb hbuf h.closed hg rfl
  · rw [encryptStep_of_more hlast, State.encipherOne]
    refine inv_of_parts hbuf h.link h.flags (commandOk_of_encrypting hst hg { he with more := ?_ })
    show s.j + 1 < s.nblk16
    omega

/-! ### FLASH -/

/-- `gen` is low in a FLASH (10 R41). -/
theorem State.Inv.gen_of_flashing {s : State} (h : s.Inv) (hs : s.st.flashing = true) : s.gen = false :=
  h.command.gen_eq_false fun hp => by simp [hp, EngState.flashing] at hs

/-- A step from one state of a FLASH to another keeps the invariant when the session and the FIFO stay sound. -/
theorem State.Inv.of_flashing {s t : State} (h : s.Inv) (hs : s.st.flashing = true) (ht : t.st.flashing = true)
    (e : (t.img, t.art, t.cfg, t.portOpen, t.gen, t.done, t.err, t.errCode) =
      (s.img, s.art, s.cfg, s.portOpen, s.gen, s.done, s.err, s.errCode))
    (hq : t.rxq.length ≤ s.cfg.rxqDepth) (hf : t.FlashingOk) : t.Inv := by
  simp only [Prod.mk.injEq] at e
  obtain ⟨himg, hart, hcfg, hport, hgen, hdone, herr, hcode⟩ := e
  have hopen : t.portOpen = true := hport.trans (h.open_of_flashing hs)
  refine inv_of_parts ?buffers ⟨hopen.trans ht.symm, fun hc => ?_, hcfg ▸ hq⟩ ?flags
    (commandOk_of_flashing ht (hgen.trans (h.gen_of_flashing hs)) hf)
  case buffers => rw [himg, hart]; exact h.buffers
  case flags =>
    rw [hdone, herr, hcode]
    exact h.flags.of_busy (EngState.busy_of_flashing hs) (EngState.busy_of_flashing ht)
  exact absurd (hopen.symm.trans hc) (by decide)

/-- A FLASH that completes ends in a sound state (44 R173, R175). -/
theorem State.Inv.complete_flash {s t : State} (h : s.Inv) (hs : s.st.flashing = true)
    (e : (t.img, t.art, t.portOpen, t.gen, t.err, t.errCode) = (s.img, s.art, s.portOpen, s.gen, s.err, s.errCode)) :
    t.complete.Inv := by
  simp only [Prod.mk.injEq] at e
  obtain ⟨himg, hart, hport, hgen, herr, hcode⟩ := e
  refine h.complete (EngState.busy_of_flashing hs) (by rw [himg, hart]; exact h.buffers) (fun hc => ?_)
    (hgen.trans (h.gen_of_flashing hs)) (by rw [herr, hcode])
  exact absurd ((h.open_of_flashing hs).symm.trans (hport.symm.trans hc)) (by decide)

/-- The CONNECTED step keeps the invariant: what is sent is block 0 from its first byte (44 R173). -/
theorem inv_connectedStep {s : State} (h : s.Inv) (hst : s.st = .connected) : (connectedStep s).Inv := by
  have hs : s.st.flashing = true := by rw [hst]; rfl
  have hf := h.flashing hs
  obtain ⟨hidx, htx⟩ := hf.connected hst
  unfold connectedStep
  split
  · exact h.complete_flash hs rfl
  · next hn =>
    refine h.of_flashing hs rfl rfl h.fifo { hf with connected := nofun, sending := fun _ => ⟨?_, ?_⟩, waiting := nofun }
    · show s.blkIdx.toNat < s.nblk
      rw [hidx]
      exact Nat.pos_of_ne_zero hn
    · show s.txpos < Config.totalSize
      rw [htx]
      decide

/-- The SENDING step keeps the invariant: at most the 80 bytes of the block are sent (44 R174). -/
theorem inv_sendingStep {s : State} (h : s.Inv) (hst : s.st = .sending) : (sendingStep s).Inv := by
  have hs : s.st.flashing = true := by rw [hst]; rfl
  have hf := h.flashing hs
  obtain ⟨hidx, htx⟩ := hf.sending hst
  rw [sendingStep_eq hst]
  by_cases hlast : s.txpos + 1 = 80
  · rw [if_pos hlast]
    exact h.of_flashing hs rfl rfl h.fifo
      { hf with connected := nofun, sending := nofun, waiting := fun _ => ⟨hidx, hlast⟩ }
  · rw [if_neg hlast]
    refine h.of_flashing hs rfl rfl h.fifo { hf with connected := nofun, sending := fun _ => ⟨hidx, ?_⟩, waiting := nofun }
    show s.txpos + 1 < 80
    have : s.txpos < 80 := htx
    omega

/-- The step that takes 0x56 keeps the invariant: with at most 192 blocks neither BLK_IDX nor PROGRESS wraps (44 R175). -/
theorem inv_ackedStep {s : State} (h : s.Inv) (hst : s.st = .awaitAck) (b : Byte) {q : List Byte}
    (hq : q.length ≤ s.rxq.length) : (ackedStep b q s).Inv := by
  have hs : s.st.flashing = true := by rw [hst]; rfl
  have hf := h.flashing hs
  obtain ⟨hidx, -⟩ := hf.waiting (.inl hst)
  have hcount : s.nblk ≤ 192 := hf.length
  by_cases hlast : s.blkIdx.toNat + 1 = s.nblk
  · rw [ackedStep_of_last hlast]
    exact h.complete_flash hs rfl
  · have hblk : (BitVec.ofNat 16 (s.blkIdx.toNat + 1)).toNat = s.blkIdx.toNat + 1 := toNat_blockNumber (by omega)
    rw [ackedStep_of_more hlast]
    refine h.of_flashing hs rfl rfl (hq.trans h.fifo)
      { hf with progress := ?_, attempt := Nat.zero_le _, connected := nofun, sending := fun _ => ⟨?_, Nat.zero_lt_succ _⟩
                waiting := nofun }
    · simp only [hblk, Config.totalSize, BitVec.toNat_ofNat]
      omega
    · simp only [hblk]
      omega

/-- From AWAIT_ACK to NACKED, on a byte or on the timeout, the block and its bytes sent stay (44 R176, R180). -/
theorem State.Inv.of_rejection {s : State} (h : s.Inv) (hst : s.st = .awaitAck) (a : LastAck) {q : List Byte}
    (hq : q.length ≤ s.rxq.length) : State.Inv { s with rxq := q, lastAck := a, st := .nacked } := by
  have hs : s.st.flashing = true := by rw [hst]; rfl
  have hf := h.flashing hs
  exact h.of_flashing hs rfl rfl (hq.trans h.fifo)
    { hf with connected := nofun, sending := nofun, waiting := fun _ => hf.waiting (.inl hst) }

/-- The NACKED step keeps the invariant: ATTEMPT is counted up only below MAX_RETRY (44 R179). -/
theorem inv_nackedStep {s : State} (h : s.Inv) (hst : s.st = .nacked) : (nackedStep s).Inv := by
  have hs : s.st.flashing = true := by rw [hst]; rfl
  have hf := h.flashing hs
  obtain ⟨hidx, -⟩ := hf.waiting (.inr hst)
  by_cases hretry : s.attempt.toNat < s.maxRetry.toNat
  · rw [nackedStep_of_retry hretry]
    refine h.of_flashing hs rfl rfl (Nat.zero_le _)
      { hf with attempt := ?_, connected := nofun, sending := fun _ => ⟨hidx, Nat.zero_lt_succ _⟩, waiting := nofun }
    have := s.maxRetry.isLt
    simp only [BitVec.toNat_ofNat]
    omega
  · rw [nackedStep_of_limit hretry]
    exact h.raiseError (EngState.busy_of_flashing hs) nofun

/-! ### The agents -/

/-- The engine's turn keeps the invariant (41 R107; 42 R133; 44 R173 to R179). -/
theorem inv_engineTurn {s : State} (h : s.Inv) : (engineTurn s).Inv := by
  rcases engineTurn_cases s with ⟨hst, he⟩ | ⟨hst, he⟩ | ⟨hst, he⟩ | ⟨hst, he⟩ | ⟨q, hst, hq, he⟩ | ⟨b, q, hst, hq, -, he⟩ |
    ⟨-, -, he⟩ | ⟨hst, he⟩ | ⟨-, he⟩ <;> rw [he]
  · exact inv_packStep h hst
  · exact inv_encryptStep h hst
  · exact inv_connectedStep h hst
  · exact inv_sendingStep h hst
  · exact inv_ackedStep h hst _ (by simp [hq])
  · exact h.of_rejection hst _ (by simp [hq])
  · exact h
  · exact inv_nackedStep h hst
  · exact h

/-- While the port is open a command runs (44 R186). -/
theorem State.Inv.busy_of_open {s : State} (h : s.Inv) (hopen : s.portOpen = true) : s.busy = true :=
  EngState.busy_of_flashing (h.flashing_of_open hopen)

/-- A byte of the device keeps the invariant: it is queued only below the depth of the FIFO (43 R155 to R157). -/
theorem inv_deviceByte {s : State} (h : s.Inv) (b : Byte) : (deviceByte b s).Inv := by
  unfold deviceByte
  split
  · next hopen =>
    split
    · next hroom =>
      have hs := h.flashing_of_open hopen
      refine h.of_flashing hs hs rfl ?_ { h.flashing hs with }
      rw [List.length_append]
      exact hroom
    · exact h.raiseError (h.busy_of_open hopen) nofun
  · exact h

/-- A link fault keeps the invariant (43 R158). -/
theorem inv_linkFails {s : State} (h : s.Inv) : (linkFails s).Inv := by
  unfold linkFails
  split
  · next hopen => exact h.raiseError (h.busy_of_open hopen) nofun
  · exact h

/-- The timeout keeps the invariant (44 R180). -/
theorem inv_timeoutFires {s : State} (h : s.Inv) : (timeoutFires s).Inv := by
  unfold timeoutFires
  split
  · next hwait => exact h.of_rejection hwait.1 .timedOut (Nat.le_refl _)
  · exact h

/-- An ABORT of a running command ends in a sound state (44 R182). -/
theorem inv_cancel {s : State} (h : s.Inv) (hb : s.busy = true) : (cancel s).Inv := by
  have hend : (s.raiseError .aborted).Inv := h.raiseError hb nofun
  have hart := h.buffers.draw_art s.draws
  unfold cancel
  dsimp only
  split
  · exact hend.of_idle rfl rfl hart
  · exact hend.of_idle rfl rfl hart
  · exact hend.of_idle rfl rfl hart
  · exact hend
  · exact hend

/-- A command accepted while not busy leads to a sound state, whether it is refused, completes or starts (40 R91). -/
theorem State.Accepted.inv {s t : State} (ha : s.Accepted t) (h : s.Inv) (hb : s.busy = false) : t.Inv := by
  obtain ⟨hclosed, hempty⟩ := h.closed_of_idle hb
  have hg := h.command.gen_of_idle hb
  have hport {st : EngState} (hst : st.flashing = false) : PortOk st s.portOpen s.rxq s.cfg.rxqDepth := by
    rw [hclosed, hempty]
    exact portOk_closed hst _
  rcases ha with ⟨c, hc, rfl⟩ | rfl | rfl | rfl | ⟨sum, stored, eq, rfl⟩ | ⟨g, hlen, hcount, haddr, rfl⟩ |
    ⟨hlen, hcount, halign, rfl⟩ | ⟨-, hlen, hframes, rfl⟩
  case inl => exact inv_raiseError (s := s.accept) h.buffers h.closed rfl hc
  case inr.inr.inr.inl =>
    have hbuf := h.buffers.write_img (a := 0) (vs := testPattern) (by rw [length_testPattern]; decide)
    generalize s.img.writeBytes 0 testPattern = m at hbuf
    exact inv_complete (s := { s.accept with img := m }) hbuf h.closed hg rfl rfl
  case inr.inr.inr.inr.inr.inl =>
    exact inv_of_parts h.buffers (hport rfl) (flagsOk_clear nofun) (commandOk_of_packing rfl ⟨hcount, rfl, hlen, haddr, rfl⟩)
  case inr.inr.inr.inr.inr.inr.inl =>
    exact inv_of_parts h.buffers (hport rfl) (flagsOk_clear nofun)
      (commandOk_of_encrypting rfl hg ⟨hcount, halign, hlen, .inl rfl⟩)
  case inr.inr.inr.inr.inr.inr.inr =>
    refine inv_of_parts h.buffers ⟨rfl, nofun, Nat.zero_le _⟩ (flagsOk_clear nofun) (commandOk_of_flashing rfl hg ?_)
    refine ⟨hframes, ?_, rfl, Nat.zero_le _, fun _ => ⟨rfl, rfl⟩, nofun, nofun, rfl⟩
    simp only [Config.artMax, Config.totalSize, Config.nMax] at hlen ⊢
    exact Nat.div_le_of_le_mul hlen
  all_goals exact inv_complete h.buffers h.closed hg rfl rfl

/-- A command word keeps the invariant (40 R90 to R92). -/
theorem inv_issueWord {v : Word} {s t : State} (h : s.Inv) (hi : issueWord v s = .next t) : t.Inv := by
  rcases issueWord_cases hi with ⟨-, -, rfl⟩ | ⟨-, hb, rfl⟩ | ⟨-, rfl⟩ | ⟨-, hb, ha⟩
  · exact h
  · exact inv_cancel h hb
  · exact h.congr rfl h.flags
  · exact ha.inv h hb

/-- A buffer write while not busy keeps the invariant: its bytes lie in the buffer (20 R60, R62). -/
theorem inv_storeBuf {s : State} (h : s.Inv) (hb : s.busy = false) {a w : Nat} {b : Buf} {off : Nat}
    (ht : target a w = some (.buf b off)) (v : Word) : (s.storeBuf b off ((List.range w).map (dataByte v))).Inv := by
  obtain ⟨-, -, ⟨rfl, -, -, hin⟩ | ⟨rfl, -, -, hin⟩⟩ := target_buf ht
  · exact h.of_idle hb rfl (h.buffers.write_img (by simpa using hin))
  · exact h.of_idle hb rfl (h.buffers.write_art (by simpa using hin))

/-- A W1C of STATUS clears flags and sets none (10 R25). -/
theorem inv_writeStatus {s : State} (h : s.Inv) (v : Word) : (s.writeStatus v).Inv := by
  refine h.congr rfl ⟨fun hd => h.doneFlag ?_, fun he => h.errFlag ?_, h.errCode⟩
  · exact (Bool.and_eq_true_iff.1 hd).1
  · exact (Bool.and_eq_true_iff.1 he).1

/-- A host access keeps the invariant (20 R61 to R69). -/
theorem inv_hostAccess {op : HostOp} {s t : State} (h : s.Inv) (ha : hostAccess op s = .next t) : t.Inv := by
  rcases hostAccess_cases ha with ⟨v, rfl⟩ | ⟨a, w, v, -, ⟨-, hc⟩ | ⟨-, rfl⟩ | ⟨-, rfl⟩ | ⟨-, rfl⟩ |
    ⟨hb, rfl | rfl | rfl | rfl⟩ | ⟨hb, b, off, ht, rfl⟩ | rfl⟩
  exacts [h.congr rfl h.flags, inv_issueWord h hc, h.congr rfl h.flags, inv_writeStatus h v, h.congr rfl h.flags,
    h.of_idle hb rfl h.buffers, h.of_idle hb rfl h.buffers, h.of_idle hb rfl h.buffers, h.of_idle hb rfl h.buffers,
    inv_storeBuf h hb ht v, h]

/-- An event keeps the invariant. -/
theorem inv_runEvent {e : Event} {s t : State} (h : s.Inv) (hr : runEvent e s = .next t) : t.Inv := by
  cases e with
  | host op      => exact inv_hostAccess h hr
  | engine       => cases hr; exact inv_engineTurn h
  | device b     => cases hr; exact inv_deviceByte h b
  | linkFault    => cases hr; exact inv_linkFails h
  | linkLevel ok => cases hr; exact h.congr rfl h.flags
  | timeout      => cases hr; exact inv_timeoutFires h
  | reset        => cases hr; exact inv_resetEvent s

/-- Settles O58: the engine's turn and every event keep the invariant, and to take an event off the schedule touches nothing of
it. -/
theorem stepKeepsTheInvariant : Obligations.StepKeepsTheInvariant := by
  unfold Obligations.StepKeepsTheInvariant
  intro s t h hstep
  rcases step_cases hstep with ⟨-, rfl⟩ | ⟨e, rest, -, hrun⟩
  · exact inv_engineTurn h
  · exact inv_runEvent (s := s.withSchedule rest) (h.congr rfl h.flags) hrun

end Sys2Proof.Machine
end

section
/-! PROOFS. A FLASH is bounded (44_sequencer.md R177, R184): every engine step and every timeout ends it or lowers its rank, and no
other step raises the rank. -/

namespace Sys2Proof.Machine

/-! ### The engine -/

/-- From `s` the FLASH ended in `t`, or its rank fell (44 R184). -/
def State.EndsOrLowers (s t : State) : Prop := t.st.flashing = false ∨ t.flashRank < s.flashRank

/-- From `s` the FLASH ended in `t`, or its rank did not rise (44 R184). -/
def State.EndsOrStays (s t : State) : Prop := t.st.flashing = false ∨ t.flashRank ≤ s.flashRank

/-- CONNECTED is above SENDING (44 R173). -/
theorem lowers_connectedStep {s : State} (hst : s.st = .connected) : s.EndsOrLowers (connectedStep s) := by
  unfold connectedStep
  split
  · exact .inl rfl
  · refine .inr ?_
    simp only [State.flashRank, hst, EngState.flashPhase]
    omega

/-- Each byte sent lowers the rank, and AWAIT_ACK is below the last of them (44 R174). -/
theorem lowers_sendingStep {s : State} (hf : s.FlashingOk) (hst : s.st = .sending) : s.EndsOrLowers (sendingStep s) := by
  have htx : s.txpos < 80 := (hf.sending hst).2
  rw [sendingStep_eq hst]
  refine .inr ?_
  by_cases hlast : s.txpos + 1 = 80
  · simp only [State.flashRank, hst, if_pos hlast, EngState.flashPhase]
    omega
  · simp only [State.flashRank, hst, if_neg hlast, EngState.flashPhase]
    omega

/-- A block acknowledged lowers the rank by more than all retransmissions of the next can raise it (44 R175). -/
theorem lowers_ackedStep {s : State} (hf : s.FlashingOk) (hst : s.st = .awaitAck) (b : Byte) (q : List Byte) :
    s.EndsOrLowers (ackedStep b q s) := by
  have hidx : s.blkIdx.toNat < s.nblk := (hf.waiting (.inl hst)).1
  have hcount : s.nblk ≤ 192 := hf.length
  by_cases hlast : s.blkIdx.toNat + 1 = s.nblk
  · rw [ackedStep_of_last hlast]
    exact .inl rfl
  · have hblk : (BitVec.ofNat 16 (s.blkIdx.toNat + 1)).toNat = s.blkIdx.toNat + 1 := toNat_blockNumber (by omega)
    rw [ackedStep_of_more hlast]
    refine .inr ?_
    simp only [State.flashRank, hst, hblk, EngState.flashPhase, BitVec.toNat_ofNat]
    omega

/-- NACKED is below AWAIT_ACK, whatever LAST_ACK and the FIFO hold (44 R176, R180). -/
theorem flashRank_of_rejection {s : State} (hst : s.st = .awaitAck) (a : LastAck) (q : List Byte) :
    State.flashRank { s with rxq := q, lastAck := a, st := .nacked } < s.flashRank := by
  simp only [State.flashRank, hst, EngState.flashPhase]
  omega

/-- A retransmission counted lowers the rank by more than a whole transmission of the block (44 R179). -/
theorem lowers_nackedStep {s : State} (hst : s.st = .nacked) : s.EndsOrLowers (nackedStep s) := by
  by_cases hretry : s.attempt.toNat < s.maxRetry.toNat
  · have hmax := s.maxRetry.isLt
    have hcounted : (BitVec.ofNat 8 (s.attempt.toNat + 1)).toNat = s.attempt.toNat + 1 := by
      rw [BitVec.toNat_ofNat, Nat.mod_eq_of_lt (by omega)]
    rw [nackedStep_of_retry hretry]
    refine .inr ?_
    simp only [State.flashRank, hst, hcounted, EngState.flashPhase]
    omega
  · rw [nackedStep_of_limit hretry]
    exact .inl rfl

/-- In a FLASH the engine's turn ends it or lowers its rank, or it is AWAIT_ACK's wait (44 R177, R184). -/
theorem lowers_engineTurn {s : State} (hf : s.FlashingOk) (hs : s.st.flashing = true) :
    s.EndsOrLowers (engineTurn s) ∨ (s.st = .awaitAck ∧ s.rxq = [] ∧ engineTurn s = s) := by
  rcases engineTurn_cases s with ⟨hst, -⟩ | ⟨hst, -⟩ | ⟨hst, he⟩ | ⟨hst, he⟩ | ⟨q, hst, -, he⟩ | ⟨b, q, hst, -, -, he⟩ |
    hwait | ⟨hst, he⟩ | ⟨hb, -⟩
  · simp [hst, EngState.flashing] at hs
  · simp [hst, EngState.flashing] at hs
  · exact .inl (he ▸ lowers_connectedStep hst)
  · exact .inl (he ▸ lowers_sendingStep hf hst)
  · exact .inl (he ▸ lowers_ackedStep hf hst _ q)
  · exact .inl (.inr (he ▸ flashRank_of_rejection hst _ q))
  · exact .inr hwait
  · exact .inl (he ▸ lowers_nackedStep hst)
  · exact absurd ((EngState.busy_of_flashing hs).symm.trans hb) (by decide)

/-- In a FLASH the engine has no step exactly in AWAIT_ACK with an empty FIFO (44 R177). -/
theorem engineStep_eq_none_iff {s : State} (hs : s.st.flashing = true) :
    engineStep s = none ↔ s.st = .awaitAck ∧ s.rxq = [] := by
  cases hst : s.st with
  | awaitAck => cases hq : s.rxq <;> simp [engineStep, awaitAckStep, hst, hq]
  | connected | sending | nacked => simp [engineStep, hst]
  | idle | packing | encrypting | done | aborted => simp [hst, EngState.flashing] at hs

/-- Every engine step of a FLASH ends it or lowers its rank (44 R184). -/
theorem lowers_engineStep {s t : State} (hf : s.FlashingOk) (hs : s.st.flashing = true) (h : engineStep s = some t) :
    s.EndsOrLowers t := by
  have hturn : engineTurn s = t := by rw [engineTurn, h]
  rcases lowers_engineTurn hf hs with hlow | ⟨hst, hq, -⟩
  · rwa [hturn] at hlow
  · rw [(engineStep_eq_none_iff hs).2 ⟨hst, hq⟩] at h
    cases h

/-! ### The other agents -/

/-- The engine's turn never raises the rank (44 R184). -/
theorem stays_engineTurn {s : State} (hf : s.FlashingOk) (hs : s.st.flashing = true) : s.EndsOrStays (engineTurn s) := by
  rcases lowers_engineTurn hf hs with hlow | ⟨-, -, he⟩
  · exact hlow.imp_right Nat.le_of_lt
  · exact .inr (by rw [he])

/-- A byte of the device is queued or ends the FLASH (43 R155, R156). -/
theorem stays_deviceByte (b : Byte) (s : State) : s.EndsOrStays (deviceByte b s) := by
  unfold deviceByte
  split
  · split
    · exact .inr (Nat.le_refl _)
    · exact .inl rfl
  · exact .inr (Nat.le_refl _)

/-- A link fault ends the FLASH (43 R158). -/
theorem stays_linkFails (s : State) : s.EndsOrStays (linkFails s) := by
  unfold linkFails
  split
  · exact .inl rfl
  · exact .inr (Nat.le_refl _)

/-- The timeout does not raise the rank (44 R180). -/
theorem stays_timeoutFires (s : State) : s.EndsOrStays (timeoutFires s) := by
  unfold timeoutFires
  split
  · next hwait => exact .inr (Nat.le_of_lt (flashRank_of_rejection hwait.1 .timedOut s.rxq))
  · exact .inr (Nat.le_refl _)

/-- An ABORT ends the FLASH (44 R182). -/
theorem cancel_not_flashing (s : State) : (cancel s).st.flashing = false := by
  unfold cancel
  dsimp only
  split <;> rfl

/-- A host access cancels the FLASH or reaches nothing of its rank (20 R65 to R69; 40 R92). -/
theorem stays_hostAccess {op : HostOp} {s t : State} (hb : s.busy = true) (h : hostAccess op s = .next t) :
    s.EndsOrStays t := by
  rcases hostAccess_of_busy hb h with ⟨a, v, -, -, -, rfl⟩ | ht
  · exact .inl (cancel_not_flashing s)
  · rw [ht]
    exact .inr (Nat.le_refl _)

/-- No event of a FLASH raises its rank (44 R184). -/
theorem stays_runEvent {e : Event} {s t : State} (hf : s.FlashingOk) (hs : s.st.flashing = true)
    (h : runEvent e s = .next t) : s.EndsOrStays t := by
  cases e with
  | host op      => exact stays_hostAccess (EngState.busy_of_flashing hs) h
  | engine       => cases h; exact stays_engineTurn hf hs
  | device b     => cases h; exact stays_deviceByte b s
  | linkFault    => cases h; exact stays_linkFails s
  | linkLevel ok => cases h; exact .inr (Nat.le_refl _)
  | timeout      => cases h; exact stays_timeoutFires s
  | reset        => cases h; exact .inl rfl

/-- Settles O36: the rank falls with the engine's steps and the timeout, and no event raises it. -/
theorem flashStepsAreBounded : Obligations.FlashStepsAreBounded := by
  unfold Obligations.FlashStepsAreBounded
  intro s hinv hs
  have hf := hinv.flashing hs
  refine ⟨fun t h => lowers_engineStep hf hs h, fun hst hq => ?timeout, fun t h => ?step, engineStep_eq_none_iff hs⟩
  case timeout =>
    rw [timeoutFires_of_emptyWait hst hq]
    exact flashRank_of_rejection hst .timedOut s.rxq
  case step =>
    rcases step_cases h with ⟨-, rfl⟩ | ⟨e, rest, -, hrun⟩
    · exact stays_engineTurn hf hs
    · exact stays_runEvent (s := s.withSchedule rest) { hf with } hs hrun

end Sys2Proof.Machine
end

section
/-! PROOFS. A FLASH whose device accepts every block (44_sequencer.md R174, R175, R178): the bytes of one block, its acknowledgment,
and the blocks one after the other. -/

namespace Sys2Proof.Machine

/-! ### The bytes of one block -/

/-- `s` after the first `m` bytes of the current block were sent, with the events `rest` to come (44 R174). -/
def State.sentBytes (s : State) (m : Nat) (rest : List Event) : State :=
  { s with
    tx := s.tx ++ s.artBytes (80 * s.blkIdx.toNat) m, txpos := m, st := if m = 80 then .awaitAck else .sending
    schedule := rest }

theorem sentBytes_zero {s : State} (hst : s.st = .sending) (htx : s.txpos = 0) : s.sentBytes 0 s.schedule = s := by
  cases s
  simp_all [State.sentBytes, State.artBytes]

/-- The engine's turn in SENDING sends the next byte of the block (44 R174). -/
theorem engineTurn_sentBytes (s : State) {m : Nat} (hm : m < 80) (rest : List Event) :
    engineTurn (s.sentBytes m rest) = s.sentBytes (m + 1) rest := by
  have hsend : (s.sentBytes m rest).st = .sending := if_neg (Nat.ne_of_lt hm)
  have hbyte : s.artBytes (80 * s.blkIdx.toNat + m) 1 = [s.artAt (80 * s.blkIdx.toNat + m)] := rfl
  rw [engineTurn_of_sending hsend, sendingStep_eq hsend]
  simp only [State.sentBytes, artBytes_add, hbyte, ← List.append_assoc]
  rfl

/-- Up to eighty engine turns in SENDING send as many bytes of the block (44 R174). -/
theorem run_sending {s : State} (hst : s.st = .sending) (htx : s.txpos = 0) : ∀ m, m ≤ 80 → ∀ {rest : List Event},
    s.schedule = List.replicate m .engine ++ rest → Host.Core.run Sys2Proof.core m s = .next (s.sentBytes m rest)
  | 0, _, rest, hs     => by
    obtain rfl : s.schedule = rest := hs
    rw [sentBytes_zero hst htx]
    rfl
  | m + 1, hm, rest, hs => by
    rw [List.replicate_succ', List.append_assoc] at hs
    rw [run_add m 1 (run_sending hst htx m (by omega) hs)]
    apply run_one
    rw [step_of_engine (rest := rest) rfl, engineTurn_sentBytes s (by omega)]
    rfl

/-- A run of artifact bytes depends on `ART` alone. -/
theorem artBytes_congr {s t : State} (h : t.art = s.art) (a n : Nat) : t.artBytes a n = s.artBytes a n := by
  simp only [State.artBytes, State.artAt, h]

/-! ### One accepted block -/

/-- `n` blocks are left to send, the next from its first byte, with an open port and an empty FIFO that takes a byte. -/
structure State.ReadyToSend (s : State) (n : Nat) : Prop where
  sending  : s.st = .sending
  fresh    : s.txpos = 0
  empty    : s.rxq = []
  portOpen : s.portOpen = true
  room     : 1 ≤ s.cfg.rxqDepth
  left     : s.blkIdx.toNat + n = s.nblk
  few      : s.nblk ≤ 192

/-- The events of an accepted block lead to the step that takes its 0x56 (44 R174, R175). -/
theorem run_ackedBlock {s : State} {n : Nat} (h : s.ReadyToSend n) {rest : List Event} (hs : s.schedule = ackedBlock ++ rest) :
    Host.Core.run Sys2Proof.core 82 s =
      .next (ackedStep Config.ackByte [] { s.sentBytes 80 rest with rxq := [Config.ackByte] }) := by
  have hsch : s.schedule = List.replicate 80 .engine ++ .device Config.ackByte :: .engine :: rest := by
    rw [hs, ackedBlock, List.append_assoc]
    rfl
  have hsent := run_sending h.sending h.fresh 80 (Nat.le_refl _) hsch
  have hqueued : step (s.sentBytes 80 (.device Config.ackByte :: .engine :: rest)) =
      .next { s.sentBytes 80 (.engine :: rest) with rxq := [Config.ackByte] } := by
    rw [step_of_device rfl, deviceByte_of_room (by exact h.portOpen) (by show s.rxq.length < _; rw [h.empty]; exact h.room)]
    show Host.Outcome.next { s.sentBytes 80 (.engine :: rest) with rxq := s.rxq ++ [Config.ackByte] } = _
    rw [h.empty]
    rfl
  have htaken : step { s.sentBytes 80 (.engine :: rest) with rxq := [Config.ackByte] } =
      .next (ackedStep Config.ackByte [] { s.sentBytes 80 rest with rxq := [Config.ackByte] }) := by
    rw [step_of_engine (rest := rest) rfl, ← engineTurn_schedule, engineTurn_of_ack (q := []) rfl rfl]
    rfl
  rw [run_add 80 2 hsent, run_add 1 1 (run_one hqueued), run_one htaken]

/-- An accepted block that is not the last leaves the next ready to send (44 R175). -/
theorem run_ackedBlock_more {s : State} {n : Nat} (h : s.ReadyToSend (n + 2)) {rest : List Event}
    (hs : s.schedule = ackedBlock ++ rest) : ∃ t, Host.Core.run Sys2Proof.core 82 s = .next t ∧ t.ReadyToSend (n + 1) ∧
      t.schedule = rest ∧ t.blkIdx.toNat = s.blkIdx.toNat + 1 ∧ t.tx = s.tx ++ s.artBytes (80 * s.blkIdx.toNat) 80 ∧
      t.art = s.art ∧ t.nblk = s.nblk := by
  have hleft := h.left
  have hfew := h.few
  have hblk : (BitVec.ofNat 16 (s.blkIdx.toNat + 1)).toNat = s.blkIdx.toNat + 1 := toNat_blockNumber (by omega)
  refine ⟨_, run_ackedBlock h hs, ?_⟩
  rw [ackedStep_of_more (by show s.blkIdx.toNat + 1 ≠ s.nblk; omega)]
  refine ⟨⟨rfl, rfl, rfl, h.portOpen, h.room, ?_, h.few⟩, rfl, hblk, rfl, rfl, rfl⟩
  show (BitVec.ofNat 16 (s.blkIdx.toNat + 1)).toNat + (n + 1) = s.nblk
  omega

/-! ### All blocks accepted -/

/-- From `s` the FLASH completed in `t`, with the `n` blocks that were left sent and acknowledged (44 R178). -/
structure State.Delivers (s t : State) (n : Nat) : Prop where
  st       : t.st = .done
  done     : t.done = true
  portOpen : t.portOpen = false
  tx       : t.tx = s.tx ++ s.artBytes (80 * s.blkIdx.toNat) (80 * n)
  progress : t.progress = BitVec.ofNat 16 (80 * s.nblk)
  blkIdx   : t.blkIdx.toNat = s.nblk
  lastAck  : t.lastAck = .received 0x56#8

/-- The last block accepted completes the FLASH (44 R175, R178). -/
theorem run_ackedBlock_last {s : State} (h : s.ReadyToSend 1) {rest : List Event} (hs : s.schedule = ackedBlock ++ rest) :
    ∃ t, Host.Core.run Sys2Proof.core 82 s = .next t ∧ s.Delivers t 1 := by
  refine ⟨_, run_ackedBlock h hs, ?_⟩
  rw [ackedStep_of_last (by exact h.left)]
  exact ⟨rfl, rfl, rfl, rfl, rfl, toNat_blockNumber h.few, rfl⟩

/-- The blocks left, each accepted, are sent in order and the FLASH completes (44 R174, R175, R178). -/
theorem run_ackedBlocks : ∀ (n : Nat) {s : State}, s.ReadyToSend (n + 1) → s.schedule = ackedBlocks (n + 1) →
    ∃ t, Host.Core.run Sys2Proof.core (82 * (n + 1)) s = .next t ∧ s.Delivers t (n + 1)
  | 0, _, h, hs     => run_ackedBlock_last h hs
  | n + 1, s, h, hs => by
    obtain ⟨u, hrun, hready, hsch, hblk, htx, hart, hnblk⟩ := run_ackedBlock_more h hs
    obtain ⟨t, hrest, d⟩ := run_ackedBlocks n hready hsch
    refine ⟨t, ?_, ⟨d.st, d.done, d.portOpen, ?_, hnblk ▸ d.progress, hnblk ▸ d.blkIdx, d.lastAck⟩⟩
    · rw [Nat.mul_succ, Nat.add_comm, run_add 82 _ hrun, hrest]
    · rw [d.tx, htx, hblk, artBytes_congr hart, Nat.mul_succ 80 (n + 1), Nat.add_comm (80 * (n + 1)), artBytes_add,
        List.append_assoc]
      rfl

/-- FLASH of `n` blocks, at least one, is ready to send the first after one engine turn (44 R171 to R173). -/
theorem exec_flash_readyToSend {s : State} {n : Nat} {rest : List Event} (hidle : s.busy = false) (hup : s.linkOk = true)
    (hroom : 1 ≤ s.cfg.rxqDepth) (hpos : 1 ≤ n) (hfew : n ≤ 192) (hlen : s.artLen.toNat = 80 * n)
    (hs : s.schedule = .engine :: rest) : ∃ s0 u, exec .flash s = .next s0 ∧ step s0 = .next u ∧ u.ReadyToSend n ∧
      u.schedule = rest ∧ u.blkIdx = 0#16 ∧ u.tx = s.tx ∧ u.art = s.art ∧ u.nblk = n := by
  have hblocks : s.artLen.toNat / 80 = n := by omega
  obtain ⟨-, -, -, hopens⟩ := flashIsAcceptedOrRefused s hidle
  have hexec := hopens (by omega) (by omega) hup
  rw [hblocks] at hexec
  refine ⟨_, _, hexec, step_of_engine (rest := rest) (by exact hs), ?_⟩
  rw [engineTurn_of_connected rfl, connectedStep, if_neg (by exact Nat.ne_of_gt hpos)]
  exact ⟨⟨rfl, rfl, rfl, rfl, hroom, Nat.zero_add n, hfew⟩, rfl, rfl, rfl, rfl, rfl⟩

/-- Settles O35: after one engine turn all `n` blocks are left to send, and the events to come accept each of them. -/
theorem acceptedFlashSendsTheArtifact : Obligations.AcceptedFlashSendsTheArtifact := by
  unfold Obligations.AcceptedFlashSendsTheArtifact
  intro s n _ hidle hup hroom hpos hfew hlen hs
  obtain ⟨s0, u, hexec, hstep, hready, hsch, hblk, htx, hart, hnblk⟩ :=
    exec_flash_readyToSend hidle hup hroom hpos hfew hlen hs
  obtain ⟨m, rfl⟩ : ∃ m, n = m + 1 := ⟨n - 1, by omega⟩
  obtain ⟨t, hrun, d⟩ := run_ackedBlocks m hready hsch
  have hsent : t.tx = s.tx ++ s.artBytes 0 (80 * (m + 1)) := by
    rw [d.tx, htx, hblk, artBytes_congr hart]
    rfl
  have hwhole : BitVec.ofNat 16 (80 * (m + 1)) = s.artLen := by rw [← hlen, BitVec.ofNat_toNat, BitVec.setWidth_eq]
  refine ⟨s0, t, hexec, ?_, d.st, d.done, d.portOpen, hsent, ?_, d.blkIdx.trans hnblk, d.lastAck⟩
  · rw [run_add 1 _ (run_one hstep), hrun]
  · rw [d.progress, hnblk, hwhole]

end Sys2Proof.Machine
end

section
/-! PROOFS. What a FLASH leaves alone (60_exceptions.md R206; 20_memory.md R67, R68): on every path but a reset, errors and ABORT
among them, the buffers, the lengths, BASE and MAX_RETRY stay. -/

namespace Sys2Proof.Machine

/-- The buffers and the registers a FLASH takes its artifact and its limits from. -/
def State.artifactView (s : State) : Memory × Memory × Half × Half × Half × Byte :=
  (s.art, s.img, s.artLen, s.imgLen, s.base, s.maxRetry)

/-! ### The engine's steps -/

/-- The CONNECTED step leaves the artifact (44 R173). -/
theorem connectedStep_artifactView (s : State) : (connectedStep s).artifactView = s.artifactView := by
  unfold connectedStep
  split <;> rfl

/-- The SENDING step reads the artifact and leaves it (44 R174). -/
theorem sendingStep_artifactView (s : State) : (sendingStep s).artifactView = s.artifactView := by
  unfold sendingStep
  dsimp only
  split <;> rfl

/-- An accepted block leaves the artifact, the last one too (44 R175). -/
theorem ackedStep_artifactView (b : Byte) (q : List Byte) (s : State) : (ackedStep b q s).artifactView = s.artifactView := by
  unfold ackedStep
  dsimp only
  split <;> rfl

/-- The NACKED step leaves the artifact, whether it tries again or gives up (44 R179; 60 R206). -/
theorem nackedStep_artifactView (s : State) : (nackedStep s).artifactView = s.artifactView := by
  unfold nackedStep
  split <;> rfl

/-- No turn of the engine in a FLASH writes the artifact: those that do are of PACKING and ENCRYPTING (44 R173 to R179). -/
theorem engineTurn_artifactView {s : State} (hs : s.st.flashing = true) : (engineTurn s).artifactView = s.artifactView := by
  rcases engineTurn_cases s with ⟨hst, -⟩ | ⟨hst, -⟩ | ⟨-, he⟩ | ⟨-, he⟩ | ⟨q, -, -, he⟩ | ⟨b, q, -, -, -, he⟩ |
    ⟨-, -, he⟩ | ⟨-, he⟩ | ⟨-, he⟩
  · simp [hst, EngState.flashing] at hs
  · simp [hst, EngState.flashing] at hs
  · rw [he, connectedStep_artifactView]
  · rw [he, sendingStep_artifactView]
  · rw [he, ackedStep_artifactView]
  · rw [he]; rfl
  · rw [he]
  · rw [he, nackedStep_artifactView]
  · rw [he]

/-! ### The other agents -/

/-- A byte of the device leaves the artifact, an overflow too (43 R155 to R157; 60 R206). -/
theorem deviceByte_artifactView (b : Byte) (s : State) : (deviceByte b s).artifactView = s.artifactView := by
  unfold deviceByte
  split
  · split <;> rfl
  · rfl

/-- A link fault leaves the artifact (43 R158; 60 R206). -/
theorem linkFails_artifactView (s : State) : (linkFails s).artifactView = s.artifactView := by
  unfold linkFails
  split <;> rfl

/-- The timeout leaves the artifact (44 R180). -/
theorem timeoutFires_artifactView (s : State) : (timeoutFires s).artifactView = s.artifactView := by
  unfold timeoutFires
  split <;> rfl

/-- A host access in a FLASH leaves the artifact: its writes are dropped, and an ABORT of a FLASH draws nothing afresh (20 R67,
R68; 44 R182). -/
theorem hostAccess_artifactView {op : HostOp} {s t : State} (hb : s.busy = true) (hrun : s.running = some .flash)
    (h : hostAccess op s = .next t) : t.artifactView = s.artifactView := by
  rcases hostAccess_of_busy hb h with ⟨a, v, -, -, -, rfl⟩ | ht
  · rw [cancel_of_flash hrun]; rfl
  · rw [ht]; rfl

/-! ### The step -/

/-- An event of a FLASH but a reset leaves the artifact (60 R206). -/
theorem runEvent_artifactView {e : Event} {s t : State} (hs : s.st.flashing = true) (hrun : s.running = some .flash)
    (h : runEvent e s = .next t) : e = .reset ∨ t.artifactView = s.artifactView := by
  cases e with
  | reset        => exact .inl rfl
  | host op      => exact .inr (hostAccess_artifactView (EngState.busy_of_flashing hs) hrun h)
  | engine       => cases h; exact .inr (engineTurn_artifactView hs)
  | device b     => cases h; exact .inr (deviceByte_artifactView b s)
  | linkFault    => cases h; exact .inr (linkFails_artifactView s)
  | linkLevel ok => cases h; exact .inr rfl
  | timeout      => cases h; exact .inr (timeoutFires_artifactView s)

/-- A step of a FLASH is a reset or leaves the artifact (60 R206). -/
theorem step_artifactView {s t : State} (hs : s.st.flashing = true) (hrun : s.running = some .flash)
    (h : step s = .next t) : (∃ rest, s.schedule = .reset :: rest) ∨ t.artifactView = s.artifactView := by
  rcases step_cases h with ⟨-, rfl⟩ | ⟨e, rest, hsch, hev⟩
  · exact .inr (engineTurn_artifactView hs)
  · rcases runEvent_artifactView (s := s.withSchedule rest) hs hrun hev with rfl | hview
    · exact .inl ⟨rest, hsch⟩
    · exact .inr hview

/-- Settles O39: in a sound state of a FLASH it is the FLASH that runs, and no step of one but a reset reaches the artifact. -/
theorem flashLeavesTheArtifact : Obligations.FlashLeavesTheArtifact := by
  unfold Obligations.FlashLeavesTheArtifact
  intro s t hinv hs h hno
  rcases step_artifactView hs (hinv.flashing hs).command h with ⟨rest, hsch⟩ | hview
  · exact absurd hsch (hno rest)
  · simpa only [State.artifactView, Prod.mk.injEq] using hview

end Sys2Proof.Machine
end

section
/-! PROOFS. Which steps clear DONE, ERR or PROG (60_exceptions.md R209): among the host's accesses only an accepted command and a
W1C of STATUS do. -/

namespace Sys2Proof.Machine

/-- From `s` to `t` no pending DONE, ERR or PROG is cleared; the enables may change. -/
structure State.KeepsFlags (s t : State) : Prop where
  done : s.done = true → t.done = true
  err  : s.err = true → t.err = true
  prog : s.prog = true → t.prog = true

/-- A step that leaves the enables too clears no flag. -/
theorem State.KeepsPending.keepsFlags {s t : State} (h : s.KeepsPending t) : s.KeepsFlags t := ⟨h.done, h.err, h.prog⟩

/-- Where no flag is cleared none goes from 1 to 0. -/
theorem State.KeepsFlags.not_cleared {s t : State} (h : s.KeepsFlags t) :
    ¬ (s.done = true ∧ t.done = false ∨ s.err = true ∧ t.err = false ∨ s.prog = true ∧ t.prog = false) := by
  rintro (⟨hs, ht⟩ | ⟨hs, ht⟩ | ⟨hs, ht⟩)
  · exact absurd ((h.done hs).symm.trans ht) (by decide)
  · exact absurd ((h.err hs).symm.trans ht) (by decide)
  · exact absurd ((h.prog hs).symm.trans ht) (by decide)

/-- An ABORT that cancels sets ERR and clears no flag (44 R182). -/
theorem keepsFlags_cancel (s : State) : s.KeepsFlags (cancel s) := by
  unfold cancel
  dsimp only
  split <;> exact ⟨id, fun _ => rfl, id⟩

/-- A buffer write clears no flag (20 R62). -/
theorem keepsFlags_storeBuf (s : State) (b : Buf) (off : Nat) (bs : List Byte) : s.KeepsFlags (s.storeBuf b off bs) := by
  cases b <;> exact ⟨id, id, id⟩

/-- A command word clears a flag only where its command, not ABORT, is accepted (40 R91, R92; 44 R182). -/
theorem issueWord_flags {v : Word} {s t : State} (h : issueWord v s = .next t) :
    (s.busy = false ∧ opcOf v ≠ 0x21#8) ∨ s.KeepsFlags t := by
  rcases issueWord_cases h with ⟨-, -, rfl⟩ | ⟨-, -, rfl⟩ | ⟨-, rfl⟩ | ⟨hop, hb, -⟩
  · exact .inr ⟨id, id, id⟩
  · exact .inr (keepsFlags_cancel s)
  · exact .inr ⟨id, id, id⟩
  · exact .inl ⟨hb, hop⟩

/-- A host access issues a command that is accepted, is a write of STATUS, or clears no flag (60 R209). -/
theorem hostAccess_flags {op : HostOp} {s t : State} (h : hostAccess op s = .next t) :
    (∃ v, op = .write 0x0004#16 4 v ∧ s.busy = false ∧ opcOf v ≠ 0x21#8) ∨
    (∃ v, op = .write 0x0008#16 4 v ∧ t = s.writeStatus v) ∨ s.KeepsFlags t := by
  rcases hostAccess_cases h with ⟨v, rfl⟩ | ⟨a, w, v, rfl, ⟨ht, hc⟩ | ⟨-, rfl⟩ | ⟨ht, rfl⟩ | ⟨-, rfl⟩ |
    ⟨-, rfl | rfl | rfl | rfl⟩ | ⟨-, b, off, -, rfl⟩ | rfl⟩
  case inr.inl =>
    obtain ⟨rfl, rfl⟩ := reg_of_target ht
    rcases issueWord_flags hc with ⟨hb, hop⟩ | hkeep
    · exact .inl ⟨v, rfl, hb, hop⟩
    · exact .inr (.inr hkeep)
  case inr.inr.inr.inl =>
    obtain ⟨rfl, rfl⟩ := reg_of_target ht
    exact .inr (.inl ⟨v, rfl, rfl⟩)
  case inr.inr.inr.inr.inr.inr.inl => exact .inr (.inr (keepsFlags_storeBuf s b off _))
  all_goals exact .inr (.inr ⟨id, id, id⟩)

/-- A flag that a W1C clears was written with a 1 (10 R25). -/
theorem bit_of_cleared {flag bit : Bool} (hset : flag = true) (hclear : (flag && !bit) = false) : bit = true := by
  simpa [hset] using hclear

/-- Settles O51: only a reset and a host write clear a flag, and of the host's writes an accepted command or a W1C. -/
theorem pendingFlagsAreClearedOnlyByHostOrReset : Obligations.PendingFlagsAreClearedOnlyByHostOrReset := by
  unfold Obligations.PendingFlagsAreClearedOnlyByHostOrReset
  intro s t h hcleared
  rcases step_keepsPending h with ⟨rest, hr⟩ | ⟨a, w, v, rest, hw⟩ | hk
  · exact ⟨rest, .inl hr⟩
  · refine ⟨rest, .inr ?_⟩
    rw [step_of_event hw] at h
    rcases hostAccess_flags (op := .write a w v) h with ⟨v', hop, hb, hopc⟩ | ⟨v', hop, rfl⟩ | hkeep
    · exact .inl ⟨v', by rw [hw, hop], hb, hopc⟩
    · exact .inr ⟨v', by rw [hw, hop], bit_of_cleared, bit_of_cleared, bit_of_cleared⟩
    · exact absurd hcleared (State.KeepsFlags.not_cleared ⟨hkeep.done, hkeep.err, hkeep.prog⟩)
  · exact absurd hcleared hk.keepsFlags.not_cleared

end Sys2Proof.Machine
end

section
/-! PROOFS. The engine while not busy (60_exceptions.md R217; 43_transport.md R157): until a command is written only the host's
accesses and the input link_ok change anything, and neither reaches the engine's state or its results. -/

namespace Sys2Proof.Machine

/-- `s` with the fields of `u` that a step other than a reset or a write of CMD can change while not busy: the enables and flags,
the registers and buffers the host writes, the bus, and the inputs (20 R61 to R69; 10 R22, R25; 43 R150). -/
def State.withIdleFields (s u : State) : State :=
  { s.withBusFields u with
    imgLen := u.imgLen, artLen := u.artLen, base := u.base, maxRetry := u.maxRetry, img := u.img, art := u.art
    schedule := u.schedule, linkOk := u.linkOk }

/-- A buffer write reaches a buffer alone (20 R62). -/
theorem storeBuf_eq_withIdleFields (s : State) (b : Buf) (off : Nat) (bs : List Byte) :
    s.storeBuf b off bs = s.withIdleFields (s.storeBuf b off bs) := by
  cases b <;> rfl

/-- While not busy a host access but a write of CMD reaches these fields alone (20 R61 to R69). -/
theorem hostAccess_of_idle {op : HostOp} {s t : State} (hb : s.busy = false) (hno : ∀ v, op ≠ .write 0x0004#16 4 v)
    (h : hostAccess op s = .next t) : t = s.withIdleFields t := by
  rcases hostAccess_cases h with ⟨v, rfl⟩ | ⟨a, w, v, rfl, ⟨ht, -⟩ | ⟨-, rfl⟩ | ⟨-, rfl⟩ | ⟨hbusy, -⟩ |
    ⟨-, rfl | rfl | rfl | rfl⟩ | ⟨-, b, off, -, rfl⟩ | rfl⟩
  case inr.inl =>
    obtain ⟨rfl, rfl⟩ := reg_of_target ht
    exact absurd rfl (hno v)
  case inr.inr.inr.inr.inl => exact absurd (hbusy.symm.trans hb) (by decide)
  case inr.inr.inr.inr.inr.inr.inl => exact storeBuf_eq_withIdleFields s b off _
  all_goals rfl

/-- While not busy the timeout does not fire (44 R180). -/
theorem timeoutFires_of_idle {s : State} (hb : s.busy = false) : timeoutFires s = s := by
  refine timeoutFires_of_not_emptyWait (.inl fun hst => ?_)
  simp [State.busy, hst, EngState.busy] at hb

/-- With the port closed the link cannot fail (43 R158). -/
theorem linkFails_of_closed {s : State} (hclosed : s.portOpen = false) : linkFails s = s := if_neg (by simp [hclosed])

/-- While not busy, with the port closed, an event that is no host access and no reset changes the input link_ok at most (60 R217;
43 R157). -/
theorem runEvent_of_idle {e : Event} {s t : State} (hb : s.busy = false) (hclosed : s.portOpen = false)
    (h : runEvent e s = .next t) : e = .reset ∨ (∃ op, e = .host op) ∨ ∃ ok, t = { s with linkOk := ok } := by
  cases e with
  | reset        => exact .inl rfl
  | host op      => exact .inr (.inl ⟨op, rfl⟩)
  | engine       => cases h; exact .inr (.inr ⟨s.linkOk, engineTurn_of_not_busy hb⟩)
  | device b     => cases h; exact .inr (.inr ⟨s.linkOk, deviceByte_of_closed hclosed b⟩)
  | linkFault    => cases h; exact .inr (.inr ⟨s.linkOk, linkFails_of_closed hclosed⟩)
  | linkLevel ok => cases h; exact .inr (.inr ⟨ok, rfl⟩)
  | timeout      => cases h; exact .inr (.inr ⟨s.linkOk, timeoutFires_of_idle hb⟩)

/-- A step while not busy, with the port closed, is a reset, a host access, or changes the schedule and link_ok at most (60
R217). -/
theorem step_of_idle {s t : State} (hb : s.busy = false) (hclosed : s.portOpen = false) (h : step s = .next t) :
    (∃ rest, s.schedule = .reset :: rest) ∨
    (∃ op rest, s.schedule = .host op :: rest ∧ hostAccess op (s.withSchedule rest) = .next t) ∨
    ∃ l ok, t = { s with schedule := l, linkOk := ok } := by
  rcases step_cases h with ⟨-, rfl⟩ | ⟨e, rest, hs, hrun⟩
  · exact .inr (.inr ⟨s.schedule, s.linkOk, engineTurn_of_not_busy hb⟩)
  · rcases runEvent_of_idle (s := s.withSchedule rest) hb hclosed hrun with rfl | ⟨op, rfl⟩ | ⟨ok, rfl⟩
    · exact .inl ⟨rest, hs⟩
    · exact .inr (.inl ⟨op, rest, hs, hrun⟩)
    · exact .inr (.inr ⟨rest, ok, rfl⟩)

/-- A step while not busy, with the port closed, that is no write of CMD and no reset reaches the host's fields and the inputs
alone, and without a host access the inputs alone (60 R217). -/
theorem step_of_idle_noCommand {s t : State} (hb : s.busy = false) (hclosed : s.portOpen = false) (h : step s = .next t)
    (hcmd : ∀ v rest, s.schedule ≠ .host (.write 0x0004#16 4 v) :: rest) (hreset : ∀ rest, s.schedule ≠ .reset :: rest) :
    (∃ u, t = s.withIdleFields u) ∧
    ((∀ op rest, s.schedule ≠ .host op :: rest) → t = { s with schedule := t.schedule, linkOk := t.linkOk }) := by
  rcases step_of_idle hb hclosed h with ⟨rest, hs⟩ | ⟨op, rest, hs, hacc⟩ | ⟨l, ok, rfl⟩
  · exact absurd hs (hreset rest)
  · have hno (v : Word) : op ≠ .write 0x0004#16 4 v := fun hop => hcmd v rest (hop ▸ hs)
    exact ⟨⟨t, hostAccess_of_idle (s := s.withSchedule rest) hb hno hacc⟩, fun hhost => absurd hs (hhost op rest)⟩
  · exact ⟨⟨{ s with schedule := l, linkOk := ok }, rfl⟩, fun _ => rfl⟩

/-- Settles O53: in a sound state that is not busy the port is closed, and none of the named fields is among those a step without a
command reaches. -/
theorem idleEngineStays : Obligations.IdleEngineStays := by
  unfold Obligations.IdleEngineStays
  intro s t hinv hb h hcmd hreset
  obtain ⟨⟨u, rfl⟩, hinputs⟩ := step_of_idle_noCommand hb (hinv.closed_of_idle hb).1 h hcmd hreset
  simpa only [State.withIdleFields, State.withBusFields, true_and] using hinputs

end Sys2Proof.Machine
end

section
/-! PROOFS. Reset (70_reset_and_hazards.md R230, R231; 10_state.md section 2): the register values at power-on, and what the reset
event leaves from any state. -/

namespace Sys2Proof.Machine

/-- With no flag pending irq is low, whatever the enables (10 R45; 70 R230). -/
theorem irq_of_clear {s : State} (hdone : s.done = false) (herr : s.err = false) (hprog : s.prog = false) :
    s.irq = false := by
  simp only [State.irq, hdone, herr, hprog, Bool.false_and, Bool.or_false]

/-- With no enable set CTRL reads 0 in its defined bits (10 R22). -/
theorem ctrlWord_of_disabled {s : State} (hdone : s.doneIe = false) (herr : s.errIe = false) (hprog : s.progIe = false) :
    s.ctrlWord = 0#32 := by
  rw [State.ctrlWord, hdone, herr, hprog]
  decide

/-- In IDLE, with the port closed and every flag low, STATUS reads 0 in its defined bits (10 R24, R40). -/
theorem statusWord_of_clear {s : State} (hst : s.st = .idle) (hport : s.portOpen = false)
    (hflags : (s.done, s.err, s.prog, s.matched, s.werr) = (false, false, false, false, false)) : s.statusWord = 0#32 := by
  simp only [Prod.mk.injEq] at hflags
  obtain ⟨hdone, herr, hprog, hmatched, hwerr⟩ := hflags
  rw [State.statusWord, State.busy, hst, hport, hdone, herr, hprog, hmatched, hwerr]
  decide

/-- Settles O55: with no enable, no flag and the port closed CTRL, STATUS and irq are 0; every other register stands in State.reset. -/
theorem resetRegisterValues : Obligations.ResetRegisterValues := by
  unfold Obligations.ResetRegisterValues
  exact ⟨ctrlWord_of_disabled rfl rfl rfl, statusWord_of_clear rfl rfl rfl, rfl, rfl, rfl, rfl, rfl, rfl, rfl, rfl, rfl, rfl, rfl,
    rfl, rfl, rfl, irq_of_clear rfl rfl rfl, rfl, rfl, rfl, rfl, rfl⟩

/-- The reset event ends whatever command runs (70 R231). -/
@[simp] theorem busy_resetEvent (s : State) : s.resetEvent.busy = false := rfl

/-- irq is low after the reset event (70 R230). -/
@[simp] theorem irq_resetEvent (s : State) : s.resetEvent.irq = false := irq_of_clear rfl rfl rfl

/-- Settles O54: the step runs the reset event, whose fields the laws of `State.resetEvent` give one by one. -/
theorem resetEventResetsEverything : Obligations.ResetEventResetsEverything := by
  unfold Obligations.ResetEventResetsEverything
  intro s rest h
  exact ⟨(s.withSchedule rest).resetEvent, step_of_event h, by simp [LastAck.word]⟩

end Sys2Proof.Machine
end

section
/-! PROOFS. When results show (70_reset_and_hazards.md R237; 20_memory.md R72): a step after which a command still runs changes
nothing a host reads in ART_LEN, CKSUM and MATCH, but for what an acceptance clears (40_command.md R91). -/

namespace Sys2Proof.Machine

/-! ### What the host reads of the results -/

/-- What a host reads in ART_LEN, CKSUM and MATCH (70 R237). -/
def State.resultView (s : State) : Half × Half × Half × Bool :=
  (s.shownArtLen, s.cksumCalc, s.cksumStored, s.matched)

/-- From `s` to `t` the command ends, or the results show as before (70 R237). -/
def State.EndsOrShows (s t : State) : Prop := t.busy = false ∨ t.resultView = s.resultView

/-- While not busy the engine is not ENCRYPTING. -/
theorem not_encrypting_of_not_busy {s : State} (hb : s.busy = false) : s.st ≠ .encrypting := fun he => by
  simp [State.busy, he, EngState.busy] at hb

/-- Outside an encryption phase the results show when the registers stay (20 R61). -/
theorem resultView_of_registers {s t : State} (hs : s.st ≠ .encrypting) (ht : t.st ≠ .encrypting)
    (e : (t.artLen, t.cksumCalc, t.cksumStored, t.matched) = (s.artLen, s.cksumCalc, s.cksumStored, s.matched)) :
    t.resultView = s.resultView := by
  rw [State.resultView, State.resultView, shownArtLen_of_not_encrypting hs, shownArtLen_of_not_encrypting ht, e]

/-! ### The engine's steps -/

/-- The PACK step shows no new ART_LEN unless it completes: a GENERATE that goes on to encrypt shows the length of before (41 R107;
70 R237). -/
theorem showsResults_packStep {s : State} (hp : s.PackingOk) (hst : s.st = .packing) : s.EndsOrShows (packStep s) := by
  rcases packStep_cases s with ⟨-, he⟩ | ⟨-, -, he⟩ | ⟨-, hg, he⟩ <;> rw [he]
  · exact .inr rfl
  · exact .inl rfl
  · have hrun : s.running = some .generate := by rw [hp.command, if_pos hg]
    refine .inr ?_
    rw [State.resultView, State.resultView, shownArtLen_of_not_encrypting (s := s) (by rw [hst]; nofun),
      State.shownArtLen, if_pos ⟨rfl, hrun⟩]

/-- The artifact and the chaining are no results. The buffer and the block are variables here: no `rfl` unfolds the store. -/
theorem resultView_withBlock (s : State) (m : Memory) (c : Block) (j : Nat) :
    State.resultView { s with art := m, cv := c, j := j } = s.resultView := rfl

/-- The ENCRYPT step reaches no result unless it completes (42 R133). -/
theorem showsResults_encryptStep (s : State) : s.EndsOrShows (encryptStep s) := by
  by_cases hlast : s.j + 1 = s.nblk16
  · rw [encryptStep_of_last hlast]
    exact .inl rfl
  · rw [encryptStep_of_more hlast]
    exact .inr (resultView_withBlock s _ _ _)

/-- The CONNECTED step shows the results as before (44 R173). -/
theorem showsResults_connectedStep {s : State} (hst : s.st = .connected) : s.EndsOrShows (connectedStep s) := by
  unfold connectedStep
  split
  · exact .inl rfl
  · exact .inr (resultView_of_registers (by rw [hst]; nofun) nofun rfl)

/-- The SENDING step shows the results as before (44 R174). -/
theorem showsResults_sendingStep {s : State} (hst : s.st = .sending) : s.EndsOrShows (sendingStep s) := by
  rw [sendingStep_eq hst]
  refine .inr (resultView_of_registers (by rw [hst]; nofun) ?_ rfl)
  dsimp only
  split <;> nofun

/-- An accepted block shows the results as before (44 R175). -/
theorem showsResults_ackedStep {s : State} (hst : s.st = .awaitAck) (b : Byte) (q : List Byte) :
    s.EndsOrShows (ackedStep b q s) := by
  unfold ackedStep
  dsimp only
  split
  · exact .inl rfl
  · exact .inr (resultView_of_registers (by rw [hst]; nofun) nofun rfl)

/-- The NACKED step shows the results as before (44 R179). -/
theorem showsResults_nackedStep {s : State} (hst : s.st = .nacked) : s.EndsOrShows (nackedStep s) := by
  unfold nackedStep
  split
  · exact .inr (resultView_of_registers (by rw [hst]; nofun) nofun rfl)
  · exact .inl rfl

/-- A turn of the engine shows new results only where it ends the command (70 R237). -/
theorem showsResults_engineTurn {s : State} (h : s.Inv) : s.EndsOrShows (engineTurn s) := by
  rcases engineTurn_cases s with ⟨hst, he⟩ | ⟨-, he⟩ | ⟨hst, he⟩ | ⟨hst, he⟩ | ⟨q, hst, -, he⟩ | ⟨b, q, hst, -, -, he⟩ |
    ⟨-, -, he⟩ | ⟨hst, he⟩ | ⟨-, he⟩ <;> rw [he]
  · exact showsResults_packStep (h.packing hst) hst
  · exact showsResults_encryptStep s
  · exact showsResults_connectedStep hst
  · exact showsResults_sendingStep hst
  · exact showsResults_ackedStep hst _ q
  · exact .inr (resultView_of_registers (by rw [hst]; nofun) nofun rfl)
  · exact .inr rfl
  · exact showsResults_nackedStep hst
  · exact .inr rfl

/-! ### The link's inputs -/

/-- A byte of the device reaches no result; an overflow ends the command (43 R155 to R157). -/
theorem showsResults_deviceByte (b : Byte) (s : State) : s.EndsOrShows (deviceByte b s) := by
  unfold deviceByte
  split
  · split
    · exact .inr rfl
    · exact .inl rfl
  · exact .inr rfl

/-- A link fault ends the command (43 R158). -/
theorem showsResults_linkFails (s : State) : s.EndsOrShows (linkFails s) := by
  unfold linkFails
  split
  · exact .inl rfl
  · exact .inr rfl

/-- The timeout shows the results as before (44 R180). -/
theorem showsResults_timeoutFires (s : State) : s.EndsOrShows (timeoutFires s) := by
  unfold timeoutFires
  split
  · next hwait => exact .inr (resultView_of_registers (by rw [hwait.1]; nofun) nofun rfl)
  · exact .inr rfl

/-! ### The host's accesses -/

/-- An ABORT ends the command (44 R182). -/
theorem cancel_not_busy (s : State) : (cancel s).busy = false := by
  unfold cancel
  dsimp only
  split <;> rfl

/-- From `s` to `t` a command was accepted and runs on; the results show as its acceptance left them (40 R91). -/
def State.StartsCleared (s t : State) : Prop := s.busy = false ∧ t.resultView = s.accept.resultView

/-- An accepted command ends at once, or starts with the results that acceptance leaves (40 R91). -/
theorem State.Accepted.ends_or_starts {s t : State} (ha : s.Accepted t) (hb : s.busy = false) :
    t.busy = false ∨ s.StartsCleared t := by
  have hst := not_encrypting_of_not_busy (s := s.accept) hb
  rcases ha with ⟨c, -, rfl⟩ | rfl | rfl | rfl | ⟨sum, stored, eq, rfl⟩ | ⟨g, -, -, -, rfl⟩ | ⟨-, -, -, rfl⟩ | ⟨-, -, -, rfl⟩
  case inr.inr.inr.inr.inr.inl => exact .inr ⟨hb, resultView_of_registers hst nofun rfl⟩
  case inr.inr.inr.inr.inr.inr.inl =>
    refine .inr ⟨hb, ?_⟩
    rw [State.resultView, State.resultView, shownArtLen_of_not_encrypting hst, shownArtLen_of_not_generate (by nofun)]
    rfl
  case inr.inr.inr.inr.inr.inr.inr => exact .inr ⟨hb, resultView_of_registers hst nofun rfl⟩
  all_goals exact .inl rfl

/-- A command word shows new results only where its command ends (40 R91, R92; 44 R182). -/
theorem showsResults_issueWord {v : Word} {s t : State} (h : issueWord v s = .next t) :
    s.EndsOrShows t ∨ s.StartsCleared t := by
  rcases issueWord_cases h with ⟨-, -, rfl⟩ | ⟨-, -, rfl⟩ | ⟨-, rfl⟩ | ⟨-, hb, ha⟩
  · exact .inl (.inr rfl)
  · exact .inl (.inl (cancel_not_busy s))
  · exact .inl (.inr rfl)
  · exact (ha.ends_or_starts hb).imp_left .inl

/-- A host access shows new results only where no command runs after it: a write of ART_LEN takes effect only while not busy (20
R67 to R69). -/
theorem showsResults_hostAccess {op : HostOp} {s t : State} (h : hostAccess op s = .next t) :
    s.EndsOrShows t ∨ s.StartsCleared t := by
  rcases hostAccess_cases h with ⟨v, rfl⟩ | ⟨a, w, v, -, ⟨-, hc⟩ | ⟨-, rfl⟩ | ⟨-, rfl⟩ | ⟨-, rfl⟩ |
    ⟨hb, rfl | rfl | rfl | rfl⟩ | ⟨hb, b, off, -, rfl⟩ | rfl⟩
  case inr.inl => exact showsResults_issueWord hc
  case inr.inr.inr.inr.inr.inr.inl => cases b <;> exact .inl (.inl hb)
  exacts [.inl (.inr rfl), .inl (.inr rfl), .inl (.inr rfl), .inl (.inr rfl), .inl (.inl hb), .inl (.inl hb), .inl (.inl hb),
    .inl (.inl hb), .inl (.inr rfl)]

/-! ### The step -/

/-- An event shows new results only where the command ends (70 R237). -/
theorem showsResults_runEvent {e : Event} {s t : State} (hinv : s.Inv) (h : runEvent e s = .next t) :
    s.EndsOrShows t ∨ s.StartsCleared t := by
  cases e with
  | host op      => exact showsResults_hostAccess h
  | engine       => cases h; exact .inl (showsResults_engineTurn hinv)
  | device b     => cases h; exact .inl (showsResults_deviceByte b s)
  | linkFault    => cases h; exact .inl (showsResults_linkFails s)
  | linkLevel ok => cases h; exact .inl (.inr rfl)
  | timeout      => cases h; exact .inl (showsResults_timeoutFires s)
  | reset        => cases h; exact .inl (.inl (busy_resetEvent s))

/-- A step from a sound state shows new results only where the command ends (70 R237). -/
theorem showsResults_step {s t : State} (hinv : s.Inv) (h : step s = .next t) : s.EndsOrShows t ∨ s.StartsCleared t := by
  rcases step_cases h with ⟨-, rfl⟩ | ⟨e, rest, -, hrun⟩
  · exact .inl (showsResults_engineTurn hinv)
  · exact showsResults_runEvent (s := s.withSchedule rest) (hinv.congr rfl hinv.flags) hrun

/-- Settles O49: where the command does not end the results show as before, or as the acceptance of a command leaves them. -/
theorem resultsShowOnlyFromTheCompletingStep : Obligations.ResultsShowOnlyFromTheCompletingStep := by
  unfold Obligations.ResultsShowOnlyFromTheCompletingStep
  intro s t hinv h hrun
  rcases showsResults_step hinv h with (hends | hview) | ⟨hb, hview⟩
  · exact absurd (hends.symm.trans hrun) (by decide)
  all_goals
    simp only [State.resultView, Prod.mk.injEq] at hview
    obtain ⟨hlen, hcalc, hstored, hmatched⟩ := hview
  · exact ⟨hlen, hcalc, hstored, .inl hmatched⟩
  · exact ⟨hlen, hcalc, hstored, .inr ⟨hb, hmatched⟩⟩

end Sys2Proof.Machine
end
